-- ==== Sys2Proof/Word.lean ====
section
/-! DEFINITION. The tagged word of the module (R41): a tag byte and a 64-bit datum, and the names of its parts. -/
namespace Sys2Proof

/-- A 64-bit datum, address or register value. -/
abbrev Datum := BitVec 64
/-- One byte. -/
abbrev Byte := BitVec 8
/-- A hart identifier: tile[10:8], cluster[7:5], core[4:2], thread[1:0] (R19). -/
abbrev Hart := BitVec 11
/-- A 52-bit physical address (R317). -/
abbrev PA := BitVec 52

/-- A word is 72 bits: the tag byte and the datum (R41). -/
structure Word where
  tag : Byte
  dat : Datum
  deriving DecidableEq, Repr

/-- TYPE is tag-byte bits [5:0] (R41). -/
abbrev Word.type (w : Word) : BitVec 6 := w.tag.extractLsb' 0 6
/-- COLOUR is tag-byte bits [7:6] (R41). -/
abbrev Word.colour (w : Word) : BitVec 2 := w.tag.extractLsb' 6 2
/-- A RAW word: tag byte 0x00 (R45). -/
abbrev Word.raw (d : Datum) : Word := ⟨0, d⟩
/-- The word of a type code with COLOUR 0b00 (R41). -/
abbrev Word.ofType (t : BitVec 6) (d : Datum) : Word := ⟨t.setWidth 8, d⟩

end Sys2Proof
end

