-- ==== Sys2Proof/Fields.lean ====
section
/-! DEFINITION. The operands the rows of the operation table carry: instruction fields (R138), frames and
records (R526, R527), and what a host, a debug session, a timing source or a boot brings with its command. -/
namespace Sys2Proof

/-- The register fields of an A-form instruction (R138). -/
structure AOps where
  rd : BitVec 6
  rs : BitVec 6
  rt : BitVec 6
  deriving DecidableEq, Repr

/-- The fields of an I-form or M-form instruction (R138). -/
structure IOps where
  rd : BitVec 6
  rs : BitVec 6
  imm : BitVec 14
  deriving DecidableEq, Repr

/-- Who makes a register access (R674, R678 ERR_FIRST.SRC): a thread by its hart identifier, the host by its
requester ID, the Headframe, or the module's own hardware. -/
inductive Requester where
  | thread (h : Hart)
  | host
  | headframe
  | hardware
  deriving DecidableEq, Repr

/-- A sequencer: a core's hart, or a unit context of the Sluice, Stope or Drift engines (R237). -/
inductive Sequencer where
  | core (h : Hart)
  | sluice (inst ctx : Nat)
  | stope (inst ctx : Nat)
  | drift (inst ctx : Nat)
  deriving DecidableEq, Repr

/-- The conditions a unit word may wait on (R237): a memory response, a Stope completion, a Cage acknowledgement (the credit of
the Cage), a time compare, a forwarding credit to another controller, a transmit credit of a frame class, or a frame. -/
inductive WaitCond where
  | memory
  | stopeDone
  | cageAck
  | timeCompare
  | forward
  | credit (cls : BitVec 2)
  | frame
  deriving DecidableEq, Repr

/-- A unit word's WAIT: its condition, whether its context issues CAGE-class messages (R239), the limit the word names, and
the word of its expiry branch (R238). -/
structure UnitWait where
  cond : WaitCond
  cage : Bool
  limit : Datum
  expiry : Nat
  deriving DecidableEq, Repr

/-- The caches of the module (R352). -/
inductive CacheKind where
  | l1i | l1d | l2 | l3
  deriving DecidableEq, Repr

/-- Where a physical fault lies (R29, R36, R44, R409): a line of a stack at its stack byte address (R396), an HBM datum line,
or the HBM tag line of a granule; a word of a cache's copy of a line; a tag byte of a Caddy entry; a word of a tail store; a
physical register or a tub entry of a hart; half a microword of a core's patch RAM or Blend store; a word of a unit
sequencer's store; a core's logic; a physical block of NVM (R642); a flit on a rail (R490, R509); codewords that a port receives
(R547). `part` is a protection unit of a stored word: its low
datum half, its high one, or its tag byte (R44). -/
inductive Place where
  | stack (m : Fin 9) (addr : Nat)
  | datumLine (line : Nat)
  | tagLine (granule : Nat)
  | cached (kind : CacheKind) (unit : Nat) (pa : Nat) (part : Fin 3)
  | caddy (granule : Nat) (byte : Fin 64)
  | tail (pa : Nat) (part : Fin 3)
  | register (h : Hart) (preg : Nat) (part : Fin 3)
  | tub (h : Hart) (id : Fin 32) (part : Fin 3)
  | control (core : BitVec 9) (ua : BitVec 14) (half : Bool) (part : Fin 3)
  | unitStore (engine : BitVec 2) (inst : Nat) (word : Nat)
  | logic (core : BitVec 9)
  | nvm (block : BitVec 11)
  | flit (rail : Bool)
  | fec (p : Fin 4)
  deriving DecidableEq, Repr

/-- A fault that nothing has met yet: its place, and the symbols (HBM, R409) or bits (R44) in error there; for a core's
logic, 1 is a transient fault and 2 a permanent one (R29, R30); an NVM block fails its write verify (R642). -/
structure Latent where
  place : Place
  n : Nat
  deriving DecidableEq, Repr

/-- What passes with the time counter: the cycles of its clock (R548), and the faults that strike the module meanwhile
(DESIGN CHOICE, log 85). -/
structure Passage where
  cycles : Nat
  faults : List Latent
  deriving DecidableEq, Repr

/-- The instruction an event interrupts at a commit point inside it: a bignum-path operation (R217) by its OPG
function code, or a range operation (R387) by its OPS function code, with the progress reached. -/
structure Partial where
  fn : Byte
  ops : AOps
  outer : BitVec 32
  inner : BitVec 32
  deriving DecidableEq, Repr

/-- A Drift record (R527). -/
structure Record where
  op : Byte
  win : BitVec 4
  rtag : BitVec 16
  err : BitVec 16
  hart : Hart
  addr : Datum
  words : List Word
  deriving DecidableEq, Repr

/-- A Drift frame: the VID, PCP and DEI of its C-tag and its EtherType (R517, R526), its header (R526) and records. The
destination and source addresses follow from the nodes and the plane (R519). -/
structure Frame where
  vid : BitVec 12
  pcp : BitVec 3
  dei : Bool
  etype : BitVec 16
  ver : BitVec 4
  typ : BitVec 4
  cls : BitVec 2
  plane : BitVec 2
  session : BitVec 16
  src : BitVec 18
  dst : BitVec 18
  seq : BitVec 32
  ack : BitVec 32
  sack : BitVec 32
  recs : List Record
  deriving DecidableEq, Repr

/-- A received PTP message (R553): its domain; its kind (0 Announce, 1 one-step Sync, 2 two-step Sync, 3 Follow_Up,
4 Delay_Resp); the timestamp it carries, six bytes of seconds then four of nanoseconds, each most significant first (R11); and
whether its sender is the best master by BMCA. -/
structure PtpMsg where
  domain : BitVec 7
  kind : BitVec 3
  stamp : List Byte
  better : Bool
  deriving DecidableEq, Repr

/-- A host request through a BAR: its requester ID, its selective IDE stream if it came on one, its offset. -/
structure HostReq where
  reqid : BitVec 16
  stream : Option (BitVec 8)
  off : BitVec 39
  deriving DecidableEq, Repr

/-- The path of an SPDM exchange (R596): the DOE mailbox or MCTP on I3C, in a secured session where there is one. -/
structure SpdmPath where
  i3c : Bool
  secured : Option (BitVec 16)
  deriving DecidableEq, Repr

/-- What a debug READ_REG or WRITE_REG names (R663). -/
inductive DbgReg where
  | spec (r : BitVec 6)
  | preg (i : Nat)
  | spr (n : BitVec 12)
  | pc
  | ldinfo
  | landv0
  | landv1
  deriving DecidableEq, Repr

/-- What a D3 request reaches (R660): a core's control store, its patch match table, a unit sequencer store, the
Headframe or scan. -/
inductive D3Target where
  | controlStore (cluster : BitVec 6) (ua : BitVec 14)
  | matchEntry (i : BitVec 6)
  | unitStore (engine : BitVec 2) (word : Nat)
  | headframe
  | scan
  deriving DecidableEq, Repr

/-- The H image of step 8 (R586): where it goes, its datum words, and whether its owner signature holds. -/
structure HImage where
  addr : BitVec 22
  len : BitVec 16
  data : List Datum
  signed : Bool
  deriving DecidableEq, Repr

/-- The physical facts a pass through BOOT meets (R583): the step at which a verification fails, which controllers fail
training, which rails, ports and cores fail their test (R719), whether UCAL is malformed, the security versions of the vendor
images started (R584: Headframe firmware, microcode patch, Sluice, Stope, Drift), and the images NVM holds. -/
structure BootRun where
  halt : BitVec 4
  ctlFail : BitVec 9
  railFail : BitVec 2
  portFail : BitVec 4
  coreFail : List (BitVec 9)
  ucalBad : Bool
  versions : List Nat
  blendImage : Option (List (BitVec 144))
  himage : Option HImage
  deriving DecidableEq, Repr

end Sys2Proof
end

