-- ==== Sys2Proof/Syntax.lean ====
section
/-! DEFINITION. The commands the block takes: one constructor per row of the operation table, with the row's operands. -/
namespace Sys2Proof

/-- The commands of the module, in the order of the operation table; each constructor cites its row's rule. -/
inductive Instr where
  /-- ADD (R150). -/
  | add (h : Hart) (o : AOps)
  /-- SUB (R150). -/
  | sub (h : Hart) (o : AOps)
  /-- MUL (R150). -/
  | mul (h : Hart) (o : AOps)
  /-- MULH (R150). -/
  | mulh (h : Hart) (o : AOps)
  /-- DIV (R151). -/
  | div (h : Hart) (o : AOps)
  /-- REM (R151). -/
  | rem (h : Hart) (o : AOps)
  /-- AND (R150). -/
  | and (h : Hart) (o : AOps)
  /-- OR (R150). -/
  | or (h : Hart) (o : AOps)
  /-- XOR (R150). -/
  | xor (h : Hart) (o : AOps)
  /-- SHL (R150). -/
  | shl (h : Hart) (o : AOps)
  /-- SHR (R150). -/
  | shr (h : Hart) (o : AOps)
  /-- SAR (R150). -/
  | sar (h : Hart) (o : AOps)
  /-- CLZ (R151). -/
  | clz (h : Hart) (o : AOps)
  /-- CTZ (R151). -/
  | ctz (h : Hart) (o : AOps)
  /-- POPC (R150). -/
  | popc (h : Hart) (o : AOps)
  /-- BFX (R152). -/
  | bfx (h : Hart) (o : AOps)
  /-- BFI (R152). -/
  | bfi (h : Hart) (o : AOps)
  /-- BPERM (R152). -/
  | bperm (h : Hart) (o : AOps)
  /-- CMP (R147). -/
  | cmp (h : Hart) (o : AOps)
  /-- ADDI (R150). -/
  | addi (h : Hart) (o : IOps)
  /-- ANDI (R150). -/
  | andi (h : Hart) (o : IOps)
  /-- ORI (R150). -/
  | ori (h : Hart) (o : IOps)
  /-- XORI (R150). -/
  | xori (h : Hart) (o : IOps)
  /-- SHLI (R150). -/
  | shli (h : Hart) (o : IOps)
  /-- SHRI (R150). -/
  | shri (h : Hart) (o : IOps)
  /-- SARI (R150). -/
  | sari (h : Hart) (o : IOps)
  /-- SHORI (R150). -/
  | shori (h : Hart) (o : IOps)
  /-- CMPI (R147). -/
  | cmpi (h : Hart) (o : IOps)
  /-- TAGCHK (R148). -/
  | tagchk (h : Hart) (o : IOps)
  /-- FADD (R153). -/
  | fadd (h : Hart) (o : AOps)
  /-- FSUB (R153). -/
  | fsub (h : Hart) (o : AOps)
  /-- FMUL (R153). -/
  | fmul (h : Hart) (o : AOps)
  /-- FDIV (R153). -/
  | fdiv (h : Hart) (o : AOps)
  /-- FMA (R153). -/
  | fma (h : Hart) (o : AOps)
  /-- FCVT_IF (R154). -/
  | fcvtIf (h : Hart) (o : AOps)
  /-- FCVT_FI (R154). -/
  | fcvtFi (h : Hart) (o : AOps)
  /-- FCVT_FN (R154). -/
  | fcvtFn (h : Hart) (o : AOps)
  /-- FCVT_BF (R154). -/
  | fcvtBf (h : Hart) (o : AOps)
  /-- FCMP (R147). -/
  | fcmp (h : Hart) (o : AOps)
  /-- GADD (R188). -/
  | gadd (h : Hart) (o : AOps)
  /-- GSUB (R188). -/
  | gsub (h : Hart) (o : AOps)
  /-- GMUL (R188). -/
  | gmul (h : Hart) (o : AOps)
  /-- GDIV (R195). -/
  | gdiv (h : Hart) (o : AOps)
  /-- GNEG (R188). -/
  | gneg (h : Hart) (o : AOps)
  /-- GASH (R195). -/
  | gash (h : Hart) (o : AOps)
  /-- GLT (R189). -/
  | glt (h : Hart) (o : AOps)
  /-- GLE (R189). -/
  | gle (h : Hart) (o : AOps)
  /-- GEQ (R189). -/
  | geq (h : Hart) (o : AOps)
  /-- EQ (R190). -/
  | eq (h : Hart) (o : AOps)
  /-- CAR (R209). -/
  | car (h : Hart) (o : AOps)
  /-- CDR (R209). -/
  | cdr (h : Hart) (o : AOps)
  /-- RPLACA (R209). -/
  | rplaca (h : Hart) (o : AOps)
  /-- RPLACD (R209). -/
  | rplacd (h : Hart) (o : AOps)
  /-- CONS (R208). -/
  | cons (h : Hart) (o : AOps)
  /-- GETV (R211). -/
  | getv (h : Hart) (o : AOps)
  /-- SETV (R211). -/
  | setv (h : Hart) (o : AOps)
  /-- TYPEOF (R188). -/
  | typeof (h : Hart) (o : AOps)
  /-- MKFIX (R191). -/
  | mkfix (h : Hart) (o : AOps)
  /-- UNBOX (R192). -/
  | unbox (h : Hart) (o : AOps)
  /-- TAGSET (R193). -/
  | tagset (h : Hart) (o : AOps)
  /-- FENCE_L (R372). -/
  | fenceL (h : Hart) (o : AOps)
  /-- FENCE_S (R372). -/
  | fenceS (h : Hart) (o : AOps)
  /-- FENCE_LS (R372). -/
  | fenceLs (h : Hart) (o : AOps)
  /-- FENCE_G (R372). -/
  | fenceG (h : Hart) (o : AOps)
  /-- CLEAN_BY_ADDRESS (R379). -/
  | cleanByAddress (h : Hart) (o : AOps)
  /-- INVALIDATE_BY_ADDRESS (R379). -/
  | invalidateByAddress (h : Hart) (o : AOps)
  /-- CLEAN_INVALIDATE_BY_ADDRESS (R379). -/
  | cleanInvalidateByAddress (h : Hart) (o : AOps)
  /-- CLEAN_BY_SET_WAY (R382). -/
  | cleanBySetWay (h : Hart) (o : AOps)
  /-- INVALIDATE_BY_SET_WAY (R382). -/
  | invalidateBySetWay (h : Hart) (o : AOps)
  /-- CLEAN_INVALIDATE_BY_SET_WAY (R382). -/
  | cleanInvalidateBySetWay (h : Hart) (o : AOps)
  /-- CLEAN_BY_RANGE (R383). -/
  | cleanByRange (h : Hart) (o : AOps)
  /-- INVALIDATE_BY_RANGE (R383). -/
  | invalidateByRange (h : Hart) (o : AOps)
  /-- CLEAN_INVALIDATE_BY_RANGE (R383). -/
  | cleanInvalidateByRange (h : Hart) (o : AOps)
  /-- LDW (R158). -/
  | ldw (h : Hart) (o : IOps)
  /-- STW (R158). -/
  | stw (h : Hart) (o : IOps)
  /-- LDD (R158). -/
  | ldd (h : Hart) (o : IOps)
  /-- STD (R73). -/
  | std (h : Hart) (o : IOps)
  /-- LDB (R71). -/
  | ldb (h : Hart) (o : IOps)
  /-- LDH (R71). -/
  | ldh (h : Hart) (o : IOps)
  /-- LDQ (R71). -/
  | ldq (h : Hart) (o : IOps)
  /-- STB (R73). -/
  | stb (h : Hart) (o : IOps)
  /-- STH (R73). -/
  | sth (h : Hart) (o : IOps)
  /-- STQ (R73). -/
  | stq (h : Hart) (o : IOps)
  /-- STCODE (R158). -/
  | stcode (h : Hart) (o : IOps)
  /-- LDRSV (R164). -/
  | ldrsv (h : Hart) (o : IOps)
  /-- STCND (R164). -/
  | stcnd (h : Hart) (o : IOps)
  /-- TAS (R167). -/
  | tas (h : Hart) (o : IOps)
  /-- LOAD_LANDING (R159). -/
  | loadLanding (h : Hart)
  /-- TUBLD (R170). -/
  | tubld (h : Hart) (o : IOps)
  /-- TUB_ENTRY_ARRIVAL (R170). -/
  | tubEntryArrival (h : Hart) (slot : BitVec 5)
  /-- TUBPOP (R171). -/
  | tubpop (h : Hart) (o : AOps)
  /-- TUBCNT (R172). -/
  | tubcnt (h : Hart) (o : AOps)
  /-- AFADD (R427). -/
  | afadd (h : Hart) (o : AOps) (tub noret : Bool) (mode : BitVec 3)
  /-- ACAS (R427). -/
  | acas (h : Hart) (o : AOps) (tub noret : Bool) (mode : BitVec 3)
  /-- AXCHG (R427). -/
  | axchg (h : Hart) (o : AOps) (tub noret : Bool) (mode : BitVec 3)
  /-- AOR (R427). -/
  | aor (h : Hart) (o : AOps) (tub noret : Bool) (mode : BitVec 3)
  /-- ABUMP (R427). -/
  | abump (h : Hart) (o : AOps) (tub noret : Bool) (mode : BitVec 3)
  /-- AWALK (R433). -/
  | awalk (h : Hart) (o : AOps) (tub noret : Bool) (mode : BitVec 3)
  /-- STOPE_REQUEST (R427). -/
  | stopeRequest (idx : Nat)
  /-- WALK_FORWARD (R437). -/
  | walkForward (idx : Nat)
  /-- STOPE_RESULT (R175). -/
  | stopeResult (idx : Nat)
  /-- GLD (R174). -/
  | gld (h : Hart) (o : IOps)
  /-- GST (R174). -/
  | gst (h : Hart) (o : IOps)
  /-- GAMO_FADD (R174). -/
  | gamoFadd (h : Hart) (o : AOps) (tub : Bool)
  /-- GAMO_CAS (R174). -/
  | gamoCas (h : Hart) (o : AOps) (tub : Bool)
  /-- GAMO_XCHG (R174). -/
  | gamoXchg (h : Hart) (o : AOps) (tub : Bool)
  /-- GAMO_OR (R174). -/
  | gamoOr (h : Hart) (o : AOps) (tub : Bool)
  /-- SEND (R177). -/
  | send (h : Hart) (o : AOps) (n : BitVec 4)
  /-- BR (R148). -/
  | br (h : Hart) (cond : BitVec 4) (disp : BitVec 22)
  /-- CALL (R179). -/
  | call (h : Hart) (cond : BitVec 4) (disp : BitVec 22)
  /-- CALL_REG (R179). -/
  | callReg (h : Hart) (o : AOps)
  /-- RET (R179). -/
  | ret (h : Hart) (o : AOps)
  /-- JMPL (R179). -/
  | jmpl (h : Hart) (o : IOps)
  /-- SYSCALL (R298). -/
  | syscall (h : Hart) (o : AOps)
  /-- SYSRET (R299). -/
  | sysret (h : Hart) (o : AOps)
  /-- ERET (R289). -/
  | eret (h : Hart) (o : AOps)
  /-- TRAP (R268). -/
  | trap (h : Hart) (o : IOps)
  /-- WAITT (R180). -/
  | waitt (h : Hart) (o : AOps)
  /-- WAITT_COMPLETE (R180). -/
  | waittComplete (h : Hart)
  /-- WFI (R181). -/
  | wfi (h : Hart) (o : AOps)
  /-- LSETUP (R106). -/
  | lsetup (h : Hart) (o : IOps)
  /-- REP (R110). -/
  | rep (h : Hart) (o : IOps)
  /-- REP_REPETITION (R110). -/
  | repRepetition (h : Hart)
  /-- SAVEU (R117). -/
  | saveu (h : Hart) (o : AOps)
  /-- SAVEL (R118). -/
  | savel (h : Hart) (o : AOps)
  /-- RSTRU (R119). -/
  | rstru (h : Hart) (o : AOps)
  /-- RSTRL (R120). -/
  | rstrl (h : Hart) (o : AOps)
  /-- CTXSW (R122). -/
  | ctxsw (h : Hart) (o : AOps)
  /-- RDSPR (R131). -/
  | rdspr (h : Hart) (o : IOps)
  /-- WRSPR (R131). -/
  | wrspr (h : Hart) (o : IOps)
  /-- CTX_LINK_WRITE (R125). -/
  | ctxLinkWrite (h : Hart) (rs : BitVec 6)
  /-- TIMER_CMP_ARM (R557). -/
  | timerCmpArm (h : Hart) (rs : BitVec 6)
  /-- TIMER_CMP_EXPIRY (R557). -/
  | timerCmpExpiry (h : Hart)
  /-- HOSTSIG (R578). -/
  | hostsig (h : Hart) (rs : BitVec 6)
  /-- TLBI_VA_ASID (R344). -/
  | tlbiVaAsid (h : Hart) (rs : BitVec 6)
  /-- TLBI_VA_ALL_ASID (R344). -/
  | tlbiVaAllAsid (h : Hart) (rs : BitVec 6)
  /-- TLBI_ASID (R344). -/
  | tlbiAsid (h : Hart) (rs : BitVec 6)
  /-- TLBI_STAGE1 (R344). -/
  | tlbiStage1 (h : Hart) (rs : BitVec 6)
  /-- TLBI_IPA (R344). -/
  | tlbiIpa (h : Hart) (rs : BitVec 6)
  /-- TLBI_VMID (R344). -/
  | tlbiVmid (h : Hart) (rs : BitVec 6)
  /-- TLBI_H_VA (R344). -/
  | tlbiHVa (h : Hart) (rs : BitVec 6)
  /-- TLBI_H_ALL (R344). -/
  | tlbiHAll (h : Hart) (rs : BitVec 6)
  /-- TLBI_ALL (R344). -/
  | tlbiAll (h : Hart) (rs : BitVec 6)
  /-- ARRIVE (R498). -/
  | arrive (h : Hart) (rs : BitVec 6)
  /-- ALERT (R502). -/
  | alert (h : Hart) (rs : BitVec 6)
  /-- BLEND (R243). -/
  | blend (h : Hart) (o : AOps) (sel : BitVec 8)
  /-- TRAM_MOVE (R101). -/
  | tramMove (h : Hart) (dst src : BitVec 12) (low : BitVec 6)
  /-- TRAM_IMMEDIATE (R100). -/
  | tramImmediate (h : Hart) (dst : BitVec 12) (imm : BitVec 18)
  /-- SEQ_REJECT (R243). -/
  | seqReject (h : Hart)
  /-- SEQ_NEXT (R227). -/
  | seqNext (h : Hart)
  /-- SEQ_JUMP (R227). -/
  | seqJump (h : Hart)
  /-- SEQ_CJUMP (R228). -/
  | seqCjump (h : Hart)
  /-- SEQ_CALL (R233). -/
  | seqCall (h : Hart)
  /-- SEQ_RETURN (R233). -/
  | seqReturn (h : Hart)
  /-- SEQ_TDISP (R224). -/
  | seqTdisp (h : Hart)
  /-- SEQ_COMMIT (R234). -/
  | seqCommit (h : Hart)
  /-- SEQ_END (R245). -/
  | seqEnd (h : Hart)
  /-- SEQ_FAIL (R227). -/
  | seqFail (h : Hart)
  /-- SEQ_WAIT (R238). -/
  | seqWait (s : Sequencer) (w : UnitWait)
  /-- UNIT_WAIT_EXPIRY (R238). -/
  | unitWaitExpiry (s : Sequencer)
  /-- ASYNC_EVENT_ACCEPT (R276). -/
  | asyncEventAccept (h : Hart) (part : Option Partial)
  /-- STORE_FAILURE (R270). -/
  | storeFailure (core : BitVec 9) (slot : BitVec 5)
  /-- SOFT_INTERRUPT_SET (R314). -/
  | softInterruptSet (h : Hart) (rs : BitVec 6)
  /-- CLU_IPI (R684). -/
  | cluIpi (who : Requester) (k : BitVec 6) (v : BitVec 64)
  /-- CORE_SPARING (R31). -/
  | coreSparing (core : BitVec 9) (stallNs : BitVec 32)
  /-- CORE_LOST (R36). -/
  | coreLost (core : BitVec 9)
  /-- CONTROLLER_FAILED (R36). -/
  | controllerFailed (m : Fin 9)
  /-- PATROL_SCRUB (R411). -/
  | patrolScrub (m : Fin 9)
  /-- SRAM_SCRUB (R414). -/
  | sramScrub
  /-- CLEAR (R418). -/
  | clear (who : Requester) (m : Fin 9) (v : BitVec 64)
  /-- RETAG (R418). -/
  | retag (who : Requester) (m : Fin 9) (v : BitVec 64)
  /-- FAST_CLEAR_COMPLETE (R418). -/
  | fastClearComplete (m : Fin 9)
  /-- CONTEXT_ENABLE (R459). -/
  | contextEnable (who : Requester) (c : BitVec 4) (v : BitVec 64)
  /-- PLANES_CLEARED (R469). -/
  | planesCleared (c : BitVec 4)
  /-- START (R462). -/
  | start (who : Requester) (c : BitVec 4) (v : BitVec 64)
  /-- RELOCATE (R462). -/
  | relocate (who : Requester) (c : BitVec 4) (v : BitVec 64)
  /-- ARMED_FLIP (R473). -/
  | armedFlip (c : BitVec 4)
  /-- FLIP_ANNOUNCEMENT (R443). -/
  | flipAnnouncement (c : BitVec 4) (k : BitVec 6)
  /-- THREAD_SWEEP (R471). -/
  | threadSweep (h : Hart)
  /-- FLIP_ACKNOWLEDGEMENT (R470). -/
  | flipAcknowledgement (c : BitVec 4) (k : BitVec 6)
  /-- HEAL_REQUEST (R449). -/
  | healRequest (c : BitVec 4) (w : Word) (a : BitVec 52)
  /-- OBJECT_COPY (R467). -/
  | objectCopy (c : BitVec 4) (p : BitVec 52)
  /-- TRACE_TERMINATION_ROUND (R465). -/
  | traceTerminationRound (c : BitVec 4)
  /-- ALLOC (R461). -/
  | alloc (who : Requester) (c : BitVec 4) (v : BitVec 64)
  /-- RETIRE (R461). -/
  | retire (who : Requester) (c : BitVec 4) (v : BitVec 64)
  /-- PIN (R461). -/
  | pin (who : Requester) (c : BitVec 4) (v : BitVec 64)
  /-- UNPIN (R461). -/
  | unpin (who : Requester) (c : BitVec 4) (v : BitVec 64)
  /-- RELEASE (R461). -/
  | release (who : Requester) (c : BitVec 4) (v : BitVec 64)
  /-- SETGEN (R461). -/
  | setgen (who : Requester) (c : BitVec 4) (v : BitVec 64)
  /-- CAGE_MESSAGE_MERGE (R491). -/
  | cageMessageMerge (idx : Nat) (rail : Bool)
  /-- ROUND_RESULT_DELIVERY (R499). -/
  | roundResultDelivery (g : BitVec 4)
  /-- CAGE_IRQ (R502). -/
  | cageIrq (h : Hart) (g : BitVec 4)
  /-- TOKEN_REFILL (R504). -/
  | tokenRefill (src : BitVec 12)
  /-- RAIL_FAILED (R509). -/
  | railFailed (rail : Bool) (why : BitVec 2)
  /-- DATA_FRAME (R530). -/
  | dataFrame (p : Fin 4) (f : Frame)
  /-- ACK (R531). -/
  | ack (p : Fin 4) (f : Frame)
  /-- SYN (R529). -/
  | syn (p : Fin 4) (f : Frame)
  /-- SYN_ACK (R529). -/
  | synAck (p : Fin 4) (f : Frame)
  /-- PROBE (R534). -/
  | probe (p : Fin 4) (f : Frame)
  /-- PROBE_ACK (R534). -/
  | probeAck (p : Fin 4) (f : Frame)
  /-- PLANE_PROBE (R534). -/
  | planeProbe (node : BitVec 18) (plane : Fin 4)
  /-- RETRANSMIT (R531). -/
  | retransmit (node : BitVec 18) (cage : Bool) (seq : BitVec 32)
  /-- PEER_UNREACHABLE (R532). -/
  | peerUnreachable (node : BitVec 18)
  /-- PORT_LINK_DOWN (R534). -/
  | portLinkDown (p : Fin 4)
  /-- PORT_FAILED (R534). -/
  | portFailed (p : Fin 4)
  /-- GLD_RECORD (R535). -/
  | gldRecord (idx : Nat)
  /-- GST_RECORD (R535). -/
  | gstRecord (idx : Nat)
  /-- GAMO_RECORD (R535). -/
  | gamoRecord (idx : Nat)
  /-- SEND_RECORD (R542). -/
  | sendRecord (idx : Nat)
  /-- MARK_RECORD (R546). -/
  | markRecord (idx : Nat)
  /-- FLIP_ACK (R474). -/
  | flipAck (idx : Nat)
  /-- FLIP_CONF (R474). -/
  | flipConf (idx : Nat)
  /-- TERM_QUERY (R546). -/
  | termQuery (idx : Nat)
  /-- REMOTE_RESPONSE (R536). -/
  | remoteResponse (idx : Nat)
  /-- ROLE_CHANGE (R543). -/
  | roleChange (who : Requester) (q : Option (Fin 48)) (v : BitVec 64)
  /-- PEER_ENABLE (R525). -/
  | peerEnable (who : Requester) (v : BitVec 64)
  /-- PEER_DISABLE (R525). -/
  | peerDisable (who : Requester) (v : BitVec 64)
  /-- PEER_RESET (R525). -/
  | peerReset (who : Requester) (v : BitVec 64)
  /-- SETPLANES (R525). -/
  | setplanes (who : Requester) (v : BitVec 64)
  /-- DRIFT_DISABLE (R521). -/
  | driftDisable (who : Requester) (v : BitVec 64)
  /-- PTP_MESSAGE (R553). -/
  | ptpMessage (p : Fin 4) (msg : PtpMsg)
  /-- PPS_IN_EDGE (R556). -/
  | ppsInEdge (rising : Bool)
  /-- HOLDOVER_ENTRY (R555). -/
  | holdoverEntry
  /-- HOST_DATUM_WRITE (R564). -/
  | hostDatumWrite (q : HostReq) (bytes : List (BitVec 8))
  /-- HOST_DATUM_READ (R565). -/
  | hostDatumRead (q : HostReq) (len : Nat)
  /-- HOST_TAG_APERTURE_ACCESS (R568). -/
  | hostTagApertureAccess (q : HostReq) (wr : Option (List (BitVec 8))) (len : Nat)
  /-- HOST_REGISTER_ACCESS (R563). -/
  | hostRegisterAccess (q : HostReq) (size : Nat) (wr : Option (BitVec 64))
  /-- PCI_RESET (R561). -/
  | pciReset (kind : BitVec 2)
  /-- DMA_DOORBELL (R573). -/
  | dmaDoorbell (who : Requester) (q : BitVec 6) (v : BitVec 64)
  /-- DMA_QUEUE_ENABLE (R572). -/
  | dmaQueueEnable (who : Requester) (q : BitVec 6) (v : BitVec 64)
  /-- DMA_NOP (R574). -/
  | dmaNop (q : BitVec 6)
  /-- HOST_TO_MODULE (R575). -/
  | hostToModule (q : BitVec 6)
  /-- MODULE_TO_HOST (R575). -/
  | moduleToHost (q : BitVec 6)
  /-- DMA_HOST_COMPLETION (R575). -/
  | dmaHostCompletion (q : BitVec 6) (status : BitVec 2) (data : List (BitVec 8))
  /-- DOE_REQUEST (R579). -/
  | doeRequest (proto : BitVec 8) (obj : List (BitVec 8))
  /-- GET_VERSION (R595). -/
  | getVersion (p : SpdmPath)
  /-- GET_CAPABILITIES (R595). -/
  | getCapabilities (p : SpdmPath)
  /-- NEGOTIATE_ALGORITHMS (R595). -/
  | negotiateAlgorithms (p : SpdmPath)
  /-- GET_DIGESTS (R595). -/
  | getDigests (p : SpdmPath)
  /-- GET_CERTIFICATE (R595). -/
  | getCertificate (p : SpdmPath) (slot : BitVec 8) (off len : BitVec 16)
  /-- CHALLENGE (R595). -/
  | challenge (p : SpdmPath) (slot : BitVec 8) (nonce : List (BitVec 8))
  /-- GET_MEASUREMENTS (R595). -/
  | getMeasurements (p : SpdmPath) (index : BitVec 8) (sig : Bool) (nonce : List (BitVec 8))
  /-- KEY_EXCHANGE (R595). -/
  | keyExchange (p : SpdmPath) (slot : BitVec 8) (exchange : List (BitVec 8))
  /-- FINISH (R595). -/
  | finish (p : SpdmPath) (verify : List (BitVec 8))
  /-- END_SESSION (R595). -/
  | endSession (p : SpdmPath)
  /-- HEARTBEAT (R595). -/
  | heartbeat (p : SpdmPath)
  /-- KEY_UPDATE (R595). -/
  | keyUpdate (p : SpdmPath) (op : BitVec 8)
  /-- IDE_KM (R580). -/
  | ideKm (p : SpdmPath) (stream : BitVec 8) (keySet : Bool) (key : List (BitVec 8))
  /-- IDE_FAILURE (R581). -/
  | ideFailure (stream : BitVec 8)
  /-- NONCE_REQUEST (R605). -/
  | nonceRequest (p : SpdmPath)
  /-- NONCE_EXPIRY (R605). -/
  | nonceExpiry (idx : Nat)
  /-- DEBUG_TOKEN (R605). -/
  | debugToken (p : SpdmPath) (tok : List (BitVec 8))
  /-- PROVISIONED_TOKEN (R598). -/
  | provisionedToken (p : SpdmPath) (tok : List (BitVec 8))
  /-- OWNER_CLAIM (R599). -/
  | ownerClaim (p : SpdmPath) (tok claim : List (BitVec 8))
  /-- RELEASE_TOKEN (R598). -/
  | releaseToken (p : SpdmPath) (tok : List (BitVec 8))
  /-- RMA_TOKEN (R598). -/
  | rmaToken (p : SpdmPath) (owner vendor : List (BitVec 8))
  /-- REFURBISH (R598). -/
  | refurbish (p : SpdmPath) (tok : List (BitVec 8))
  /-- SCRAP (R598). -/
  | scrap (p : SpdmPath) (tok : List (BitVec 8))
  /-- TEST_RUN (R600). -/
  | testRun (p : SpdmPath) (tok : List (BitVec 8))
  /-- PROVISIONING_ABANDON (R25). -/
  | provisioningAbandon
  /-- UCAL_WRITE (R637). -/
  | ucalWrite (p : SpdmPath) (item : BitVec 12) (off : BitVec 16)
  /-- READ_LIVE (R660). -/
  | readLive (s : Nat) (ring : BitVec 4) (start count : Nat)
  /-- READ_SNAPSHOT (R660). -/
  | readSnapshot (s : Nat) (slot : BitVec 3) (desc : Bool) (start count : Nat)
  /-- DEBUG_FREEZE (R660). -/
  | debugFreeze (s : Nat)
  /-- TRACE_START (R666). -/
  | traceStart (s : Nat)
  /-- TRACE_STOP (R666). -/
  | traceStop (s : Nat)
  /-- READ_TRACE (R660). -/
  | readTrace (s : Nat) (start count : Nat)
  /-- HALT (R661). -/
  | halt (s : Nat) (h : Hart)
  /-- HALT_TAKES_EFFECT (R661). -/
  | haltTakesEffect (h : Hart)
  /-- DEBUG_RESUME (R660). -/
  | debugResume (s : Nat) (h : Hart)
  /-- STEP (R662). -/
  | step (s : Nat) (h : Hart)
  /-- READ_REG (R663). -/
  | readReg (s : Nat) (h : Hart) (reg : DbgReg)
  /-- WRITE_REG (R663). -/
  | writeReg (s : Nat) (h : Hart) (reg : DbgReg) (w : Word)
  /-- READ_MEM (R660). -/
  | readMem (s : Nat) (h : Hart) (a : BitVec 64)
  /-- WRITE_MEM (R660). -/
  | writeMem (s : Nat) (h : Hart) (a : BitVec 64) (w : Word)
  /-- SET_BP (R665). -/
  | setBp (s : Nat) (h : Hart) (k : BitVec 2) (v : BitVec 64)
  /-- SET_WP (R665). -/
  | setWp (s : Nat) (h : Hart) (k : Bool) (v : BitVec 64)
  /-- D3_ACCESS (R660). -/
  | d3Access (s : Nat) (t : D3Target) (wr : Option (BitVec 144))
  /-- COPY (R659). -/
  | copy (who : Requester) (v : BitVec 64)
  /-- COPY_LIVE (R659). -/
  | copyLive (who : Requester) (v : BitVec 64)
  /-- PROTECT (R659). -/
  | protect (who : Requester) (v : BitVec 64)
  /-- UNPROTECT (R659). -/
  | unprotect (who : Requester) (v : BitVec 64)
  /-- ERASE (R659). -/
  | erase (who : Requester) (v : BitVec 64)
  /-- FREEZE (R659). -/
  | freeze (who : Requester) (v : BitVec 64)
  /-- SNAPSHOT_COMMIT_COMPLETE (R653). -/
  | snapshotCommitComplete
  /-- KICK (R658). -/
  | kick (who : Requester) (v : BitVec 64)
  /-- WATCHDOG_EXPIRY (R658). -/
  | watchdogExpiry
  /-- CAN_SWLOG (R647). -/
  | canSwlog (who : Requester) (v : BitVec 64)
  /-- BLEND_LOAD (R262). -/
  | blendLoad (who : Requester) (k : BitVec 6) (v : BitVec 64)
  /-- BLEND_SWAP (R262). -/
  | blendSwap (k : BitVec 6)
  /-- BOOT_GO (R588). -/
  | bootGo (who : Requester) (v : BitVec 64)
  /-- SEC_EXTEND (R592). -/
  | secExtend (who : Requester) (v : BitVec 64)
  /-- QUIESCE (R619). -/
  | quiesce (who : Requester)
  /-- RESUME (R619). -/
  | resume (who : Requester)
  /-- MAINTENANCE (R25). -/
  | maintenance (who : Requester)
  /-- POWER_ON (R25). -/
  | powerOn (who : Requester)
  /-- MAINTENANCE_COMPLETE (R25). -/
  | maintenanceComplete
  /-- FACTORY_TEST_ENTRY (R25). -/
  | factoryTestEntry (p : SpdmPath) (tok : List (BitVec 8))
  /-- FACTORY_TEST_EXIT (R25). -/
  | factoryTestExit
  /-- BOOT_SEQUENCE (R583). -/
  | bootSequence (b : BootRun)
  /-- REPLACEMENT_IMAGE (R585). -/
  | replacementImage (step : BitVec 4) (copyB signed : Bool)
  /-- PWR_EN_ASSERT (R25). -/
  | pwrEnAssert
  /-- PWR_EN_DEASSERT (R25). -/
  | pwrEnDeassert
  /-- SUPPLY_LOSS (R25). -/
  | supplyLoss
  /-- PWR_FAIL_N_ASSERT (R630). -/
  | pwrFailNAssert
  /-- RESET_REQUEST (R704). -/
  | resetRequest (heldMs : BitVec 32)
  /-- COLD_RESET (R703). -/
  | coldReset
  /-- MOD_RST_N_DEASSERT (R25). -/
  | modRstNDeassert
  /-- SURVIVAL_ENTRY (R628). -/
  | survivalEntry (k : BitVec 7) (reading : BitVec 16)
  /-- TILE_SHED (R620). -/
  | tileShed
  /-- SURVIVAL_EXIT (R25). -/
  | survivalExit
  /-- THERMAL_TRIP (R628). -/
  | thermalTrip (k : BitVec 7) (reading : BitVec 16)
  /-- DROOP_TRIP (R629). -/
  | droopTrip (t : Fin 8) (k : BitVec 4) (mv : BitVec 16)
  /-- SUPPLY_EMERGENCY (R630). -/
  | supplyEmergency (mv : BitVec 32)
  /-- REFCLK_TIME_LOSS (R702). -/
  | refclkTimeLoss
  /-- REFCLK_TIME_RESTORED (R702). -/
  | refclkTimeRestored
  /-- THERMAL_LIMIT_STEP (R625). -/
  | thermalLimitStep (t : Fin 8)
  /-- POWER_LIMIT_STEP (R626). -/
  | powerLimitStep
  /-- FIRST_USE_LIMIT_EXPIRY (R624). -/
  | firstUseLimitExpiry (t : Fin 8)
  /-- CAPPED_MODE_CHANGE (R23). -/
  | cappedModeChange (inputW vinMv : BitVec 32)
  /-- DOMAIN_OFF_REQUEST (R614). -/
  | domainOffRequest (who : Requester) (v : BitVec 64)
  /-- DOMAIN_RETAIN_REQUEST (R614). -/
  | domainRetainRequest (who : Requester) (v : BitVec 64)
  /-- DOMAIN_ON_REQUEST (R614). -/
  | domainOnRequest (who : Requester) (v : BitVec 64)
  /-- CLUSTER_DRAIN_COMPLETE (R393). -/
  | clusterDrainComplete (k : BitVec 6)
  /-- DOMAIN_TRANSITION_COMPLETE (R617). -/
  | domainTransitionComplete (d : BitVec 7)
  /-- THERMAL_REZERO (R639). -/
  | thermalRezero (k : BitVec 7) (reading : BitVec 16)
  /-- PHY_RETRAINING (R639). -/
  | phyRetraining (m : Fin 9)
  /-- OSCILLATOR_AGEING (R639). -/
  | oscillatorAgeing
  /-- WEAR_LEVELLING_MOVE (R642). -/
  | wearLevellingMove (block : BitVec 11)
  /-- LAMP_SAMPLE (R687). -/
  | lampSample
  /-- IDCODE (R669). -/
  | idcode
  /-- SAMPLE_PRELOAD (R668). -/
  | samplePreload (pins : BitVec 32)
  /-- EXTEST (R668). -/
  | extest (pins : BitVec 32)
  /-- CLAMP (R668). -/
  | clamp
  /-- HIGHZ (R668). -/
  | highz
  /-- BYPASS (R668). -/
  | bypass (code : BitVec 8)
  /-- TAP_PRIVATE (R668). -/
  | tapPrivate (code : BitVec 8)
  /-- IRQ_FORCE (R678). -/
  | irqForce (who : Requester) (off : BitVec 28) (v : BitVec 64)
  /-- REGISTER_WRITE (R677). -/
  | registerWrite (who : Requester) (off : BitVec 28) (v : BitVec 64)
  /-- SUPPLY_APPLIED (R25). -/
  | supplyApplied (aux : Bool) (mv : BitVec 32)
  /-- PWR_GOOD_RISE (R699). -/
  | pwrGoodRise
  /-- TIME_COUNTER_ADVANCE (R548). -/
  | timeCounterAdvance (p : Passage)
  /-- STORE_ACCEPTED (R364). -/
  | storeAccepted (core : BitVec 9) (slot : BitVec 5)
  /-- SLUICE_TRACING (R464). -/
  | sluiceTracing (c : BitVec 4) (t : Fin 8)
  /-- HOST_MAINTENANCE_REQUEST (R583). -/
  | hostMaintenanceRequest
  /-- CONFIGURATION_REQUEST (R560). -/
  | configurationRequest
  /-- HOST_LINK_UP (R571). -/
  | hostLinkUp
  /-- PORT_LINK_UP (R534). -/
  | portLinkUp (p : Fin 4) (speed : BitVec 2) (preempt : Bool)
  /-- ENTDAA (R596). -/
  | entdaa (addr : BitVec 7)
  /-- MSIX_TABLE_WRITE (R577). -/
  | msixTableWrite (n : BitVec 11) (lo hi : BitVec 64)
  /-- HOST_WINDOW_COMPLETION (R570). -/
  | hostWindowCompletion (idx : Nat) (status : BitVec 2) (data : BitVec 64)
  /-- COMPLETION_TIMEOUT (R571). -/
  | completionTimeout (idx : Nat)
  /-- DISCARDED_FRAME (R520). -/
  | discardedFrame (p : Fin 4)
  /-- TAP_RESET (R668). -/
  | tapReset
  deriving DecidableEq, Repr

end Sys2Proof
end

