-- ==== Sys2Proof/Decode.lean ====
section
/-! DEFINITION. The command a table word spells. -/
namespace Sys2Proof

/-- No row of the operation table gives its command bits: commands reach the module with their operands, and no word
spells one (DESIGN CHOICE, log 11). -/
def decodeTableWord (_nbits _w : Nat) : Option Instr := none

end Sys2Proof
end

