-- ==== Sys2Proof/Config.lean ====
section
/-! DEFINITION. What an implementation fixes and the values the manual leaves open: opaque constants without bodies, so
that no proof can see a value of one. A free value is applied to `Chip.fresh`, a counter the step advances, or to the
operands it depends on. -/
namespace Sys2Proof.Config

/-- A free choice between two outcomes the manual permits (R348, R355, R354, R409, R697, R700) (DESIGN CHOICE, log 1). -/
opaque freeBit : Nat → Bool
/-- A free datum where the manual states no value (DESIGN CHOICE, log 1). -/
opaque freeDatum : Nat → BitVec 64
/-- A free number where the manual states no value (a way, a choice among copies) (DESIGN CHOICE, log 1). -/
opaque freeNat : Nat → Nat
/-- SHA-384 (R260, R589, R604, R657): named by the manual, defined outside it (DESIGN CHOICE, log 67). -/
opaque sha384 : List (BitVec 8) → BitVec 384
/-- ECDSA P-384 verification of a signature (r then s) by an uncompressed public key over a digest (R261, R604)
(DESIGN CHOICE, log 67). -/
opaque ecdsaVerify : BitVec 384 → List (BitVec 8) → List (BitVec 8) → Bool
/-- ECDSA P-384 signature over a digest by the module's Alias key, which the DeviceID secret and the measurements of slots 1 to 7,
10 and 12 give (R593) (DESIGN CHOICE, log 67). -/
opaque aliasSign : List (BitVec 8) → BitVec 384 → List (BitVec 8)
/-- The Headframe's random source (R529, R605) (DESIGN CHOICE, log 67). -/
opaque random : Nat → BitVec 256
/-- The boot ROM's words (R671), eight bytes each (DESIGN CHOICE, log 67). -/
opaque bootRom : Nat → BitVec 64
/-- The vendor ROM of the core control store (R220) (DESIGN CHOICE, log 5). -/
opaque vendorRom : BitVec 14 → BitVec 144
/-- The patch RAM's words as the vendor's image loads them, and a unit sequencer store's words by engine × 2^16 + word (R220,
R267, R583) (DESIGN CHOICE, log 5). -/
opaque patchImage : Nat → BitVec 144
opaque unitImage : Nat → BitVec 128
/-- The patch match table as the vendor's image loads it: valid, ROM microaddress, patch microaddress (R223)
(DESIGN CHOICE, log 5). -/
opaque matchImage : Nat → BitVec 29
/-- The vendor debug key hash in fuses (R604) (DESIGN CHOICE, log 67). -/
opaque vendorKeyHash : BitVec 384
/-- The vendor's public key, which signs vouchers (R599). -/
opaque vendorKey : List (BitVec 8)
/-- DEVICE_ID, the SHA-384 of the DeviceID public key (R593). -/
opaque deviceId : BitVec 384
/-- The certificate chain of an SPDM slot, which certifies the Alias key of those measurements (R593, R595)
(DESIGN CHOICE, log 67). -/
opaque certChain : List (BitVec 8) → BitVec 8 → List (BitVec 8)
/-- What a vendor image adds to its slot: the digest of the ROM, of FCAL, the patch, the sequencer and Drift images; for 1, the
Headframe firmware's digest and version; for 10, the OWNER_CHECK policy (R590) (DESIGN CHOICE, log 67). -/
opaque imageDigest : Nat → BitVec 384
/-- FCAL: value, lower and upper limit of a calibration item, signed (R635) (DESIGN CHOICE, log 67). -/
opaque fcalValue : Nat → Int
opaque fcalLower : Nat → Int
opaque fcalUpper : Nat → Int
/-- An SPDM response body whose bytes the manual does not give (R595) (PRESUMED, log 60). -/
opaque spdmBody : Nat → List (BitVec 8)
/-- The bits of the provisioned ID on I3C above SLOT_ID (R596): the manual gives none of them (DESIGN CHOICE, log 67). -/
opaque i3cPid : BitVec 42
/-- Kenlux's manufacturer identity in IDCODE [11:1]: the manual names it and gives no value (R669) (DESIGN CHOICE, log 67). -/
opaque manufacturerId : BitVec 11
/-- The identifier of an on-chip array in an ARRAY_CORRECTED entry: the manual gives no numbering (R647) (DESIGN CHOICE, log 30). -/
opaque arrayId : Nat → BitVec 64
/-- The PA hash that gives a line's home tile (R357, R352) (DESIGN CHOICE, log 67). -/
opaque lineHash : Nat → Nat
/-- Whether the C flag of the microcode's SUB and CMP is "no borrow": the manual names the flag and not its sense (R226)
(DESIGN CHOICE, log 24). -/
opaque subCarry : Bool

end Sys2Proof.Config
end

