-- ==== Sys2Proof/Machine/State.lean ====
section
/-! DEFINITION. The state of the module as plain data: every register, buffer, queue, mode and pin the manual names,
and the queue of waiting commands. -/
namespace Sys2Proof.Machine

/-- A sparse table: keys strictly rising, no entry equal to the default its reader gives. -/
abbrev Sparse (α : Type) := List (Nat × α)

/-- The operating modes (R24). -/
inductive Mode where
  | off | standby | boot | provision | run | runCapped | runPartial | quiesced | degraded | maintenance | survival
  | factoryTest
  deriving DecidableEq, Repr

/-- The lifecycle states (R597). -/
inductive Lifecycle where
  | manufacture | provisioned | deployed | rma | scrapped
  deriving DecidableEq, Repr

/-- The states of a switched domain (R613); `trans` is "in transition" of PWR_DOM_STATE. -/
inductive Dom where
  | off | retain | on | trans
  deriving DecidableEq, Repr

/-- What a hart is doing. `off`: not released. `run`: executing. `wfi`, `waitt`: waiting (R181, R180).
`halted`: halted under R309. `stopped`: at precise state for a power event or a lost core (R393, R619, R36).
`dbg`: halted by a debug session (R661). -/
inductive RunState where
  | off | run | wfi | waitt (target : Datum) | halted | stopped | dbg
  deriving DecidableEq, Repr

/-- A load result that has not landed: its physical register (416 SP, 417 TP), word and remaining slots (R159, R288). -/
structure Landing where
  preg : Nat
  word : Word
  slots : Nat
  deriving DecidableEq, Repr

/-- What a tub entry holds (R170, R171, R429); `invalid` is a word that `TUBPOP` refuses with TAG_INVALID. -/
inductive TubVal where
  | waiting | word (w : Word) | poison | invalid | remote (code : BitVec 16)
  deriving DecidableEq, Repr

/-- A translation regime as it stood when an access was issued (R318, R434). -/
structure Regime where
  priv : BitVec 2
  asid : Datum
  vmid : Datum
  xlat : Datum
  htroot : Datum
  deriving DecidableEq, Repr

/-- One tub entry: its number, the address it was loaded from, the PA a local load reads on arrival with the page's
MTYPE where it is monotype and its leaf's W, and its value. -/
structure TubEntry where
  id : Nat
  addr : Datum
  pa : Option PA
  mtype : Option (BitVec 6)
  leafW : Bool
  val : TubVal
  /-- errors in the stored word, by protection unit: the bits in error (R44) -/
  bad : List (Fin 3 × Nat)
  deriving DecidableEq, Repr

/-- An error in a stored register that no read has met: its protection unit and the bits in error (R29, R36, R44). -/
structure RegFault where
  preg : Nat
  part : Fin 3
  n : Nat
  deriving DecidableEq, Repr

/-- Where a Stope or remote result goes (R175). -/
inductive Dest where
  | reg (preg : Nat) | tub (id : Nat) | none
  deriving DecidableEq, Repr

/-- A pending escalation of one vector: FAULT_ADDR and DETAIL of its first event (R306). -/
structure PendEsc where
  addr : Datum
  detail : BitVec 16
  deriving DecidableEq, Repr

/-- The Tram latches (R101) and the compare flags. -/
structure Tram where
  pregIdx : Nat
  maddr : Datum
  tagT : Byte
  tagD : Datum
  sprIdx : Datum
  cmpA : Datum
  cmpB : Datum
  eq : Bool
  lt : Bool
  deriving DecidableEq, Repr

/-- Where a routine stands in its word: before it; in a COPY or SEARCH service of a CALL word, or at a commit point of the bignum
path a GENERIC service runs on (R235, R247); or with its work done and its sequencing waiting for a host-window load (R232). -/
inductive Phase where
  | fetch | service | generic | sent
  deriving DecidableEq, Repr

/-- A Blend routine in progress (R225, R231, R233, R244, R249). -/
structure Micro where
  upc : BitVec 14
  entry : BitVec 14
  cls : Nat
  byRt : BitVec 2
  tsel : Byte
  aops : AOps
  insn : BitVec 32
  us : Sparse Word
  ops : Word
  opt : Word
  opd : Word
  mdr : Word
  z : Bool
  n : Bool
  c : Bool
  v : Bool
  stack : List (BitVec 14)
  count : Nat
  atCommit : Bool
  phase : Phase
  /-- TP when the routine began (R252) -/
  tp0 : Datum
  deriving DecidableEq, Repr

/-- What a hart waits for inside an instruction that has issued an operation (R162, R175, R370), or has an injection held
for a token (R505). -/
inductive Wait where
  | stope | remote | hostLoad | cage
  deriving DecidableEq, Repr

/-- The regime and area a lazy restore recorded (R127), one for each half. -/
structure LazyHalf where
  area : Datum
  regime : Regime
  deriving DecidableEq, Repr

/-- One hart (R84). -/
structure HartSt where
  run : RunState
  wait : Option Wait
  /-- the word of the instruction that waits, for its frame (R284) -/
  insn : BitVec 32
  pc : Datum
  /-- physical registers 0–415 (R88), SP at 416 and TP at 417 as RAW words -/
  regs : Sparse Word
  bad : List RegFault
  /-- special registers by number (R132), less the views computed on read -/
  spr : Sparse Word
  landings : List Landing
  tub : List TubEntry
  /-- the reserved word address (R164) -/
  resv : Option PA
  tram : Tram
  micro : Option Micro
  /-- the routines that called the GENERIC service and wait for its result, innermost first (R247) -/
  nest : List Micro
  lazyU : LazyHalf
  lazyL : LazyHalf
  /-- pending MACHINE_CHECK, HEADFRAME_EMERGENCY and SPARING_NOTICE (R306) -/
  pMc : Option PendEsc
  pHe : Option PendEsc
  pSn : Option PendEsc
  /-- pending CAGE_IRQ by group: the OR of the ALERT data (R502) -/
  pCage : Sparse (BitVec 32)
  /-- pending DEFERRED_STORE_ERROR: FAULT_ADDR and DETAIL (R274, R286) -/
  dse : Option PendEsc
  /-- the thread's view of its context's epoch and good colour (R443) -/
  epoch : BitVec 16
  good : BitVec 2
  /-- a sweep owed to its context (R471) -/
  sweep : Bool
  timerArmed : Bool
  /-- STEP of DBG_CTL raised before the next instruction (R664), already due -/
  stepDue : Bool
  /-- SKIP of a session comparator on resume (R665) -/
  dbgSkip : Bool
  /-- a halt requested by a debug session, and a single step in progress (R661, R662) -/
  haltReq : Bool
  dbgStep : Bool
  /-- the session comparators (R665) -/
  sbp : Sparse Datum
  swp : Sparse Datum
  /-- run state before a power stop, and before a debug halt, resumed when it ends -/
  before : RunState
  dbgBefore : RunState
  deriving DecidableEq, Repr

/-- A store buffer entry (R361): the stores of one thread to one line, as byte writes by cell key, and how many they are;
`plain` says that its page is not SIDE_EFFECT, so that a miss prefetches (R355). -/
structure SbEntry where
  core : BitVec 9
  slot : Nat
  hart : Hart
  line : Nat
  va : Datum
  priv : BitVec 2
  /-- a fence or serialising instruction has passed: no later store merges into it (R362) -/
  closed : Bool
  writes : List Host.Cell
  stores : Nat
  plain : Bool
  deriving DecidableEq, Repr

/-- A line slot of a cache (R352): the cache, its instance (a core, a cluster or a tile), the way, and the line PA[37:6] in
it, which gives the set. `held` is false for a locked slot that only stays reserved for its line (R390); `tags` is false for a
line held datum-only (R406). -/
structure Slot where
  kind : CacheKind
  unit : Nat
  way : Nat
  line : Nat
  held : Bool
  tags : Bool
  deriving DecidableEq, Repr

/-- The states in which a directory records a line (R357). -/
inductive LineState where
  | shared | exclusive | modified
  deriving DecidableEq, Repr

/-- A directory entry (R357): the line, the clusters that hold it, and the state. An I/O-die agent keeps no line after its
access (R360). -/
structure DirEntry where
  line : Nat
  clusters : BitVec 64
  st : LineState
  deriving DecidableEq, Repr

/-- A modified line: the core that wrote it last, the cache that holds the modified copy (that core's L1, its cluster's L2, or
the L3 of the line's home), and the cells HBM holds for it. -/
structure Dirty where
  line : Nat
  core : BitVec 9
  at_ : CacheKind
  old : List Host.Cell
  deriving DecidableEq, Repr

/-- A Caddy entry (R407): the granule whose tag line it holds, which gives its controller and set, its way, and whether it is
to be written back. -/
structure CaddyEntry where
  granule : Nat
  way : Nat
  dirty : Bool
  deriving DecidableEq, Repr

/-- What the caches, the directories and the Caddies hold (R352, R357, R407). The words themselves are in `Chip.mem`, which
is what a coherent access reads. -/
structure Caches where
  slots : List Slot
  dirs : List DirEntry
  caddy : List CaddyEntry
  dirty : List Dirty
  deriving DecidableEq, Repr

/-- A cached translation (R342): the core that holds it (512 + m for the Stope units of controller m), its tags, the
first page and page count it covers, and the leaves it came from. -/
structure TlbEntry where
  owner : Nat
  hreg : Bool
  vmid : BitVec 12
  asid : BitVec 16
  glob : Bool
  xlat : BitVec 3
  page : Nat
  leaf1 : Option Datum
  leaf2 : Option Datum
  addr1 : PA
  addr2 : PA
  ipa : Nat
  deriving DecidableEq, Repr

/-- A cached table entry (R342, R344): the owner of the cache, the stage and level, the tags of its regime, the bits of the
address it translates that lie above its level's span, its datum and its PA. Level 2 of stage 2 is the leaf of an IPA. -/
structure TableEntry where
  owner : Nat
  hreg : Bool
  stage : Nat
  level : Nat
  vmid : BitVec 12
  asid : BitVec 16
  xlat : BitVec 3
  pre : Nat
  e : Datum
  at_ : PA
  deriving DecidableEq, Repr

/-- The result of a Stope or remote operation: a word, or a trap cause with its address, detail and fault level. -/
inductive OpResult where
  | word (w : Word)
  | err (cause : BitVec 6) (addr : Datum) (detail : BitVec 16) (stage level : BitVec 2) (ipa : Option Datum)
  deriving DecidableEq, Repr

/-- A translation: the PA, the type of a monotype page, the memory attributes of both stages, SIDE_EFFECT or DEVICE of
stage 1, GEN and W of the stage-1 leaf, and where the leaves lie. -/
structure Xl where
  pa : Nat
  mono : Option (BitVec 6) := none
  device : Bool := false
  side : Bool := false
  attr1 : Bool := false
  gen : Nat := 0
  w : Bool := true
  leaf1 : Option Datum := none
  leaf2 : Option Datum := none
  at1 : Nat := 0
  at2 : Nat := 0
  ipa1 : Nat := 0
  deriving DecidableEq, Repr

/-- A Stope operation from its issue to its result (R426–R437): the controller it is at, the translation of its target made at
issue, and of a walk the cell it is at, whether that cell's controller has it, and the words of the cell read so far. -/
structure StopeReq where
  id : Nat
  hart : Hart
  op : BitVec 3
  mode : BitVec 3
  ctl : Nat
  va : Datum
  xl : Xl
  expect : Word
  arg : Word
  dest : Dest
  regime : Regime
  epoch : BitVec 16
  good : BitVec 2
  cell : Word
  hops : Nat
  settled : Bool
  read : List Word
  forward : Option Nat
  result : Option OpResult
  deriving DecidableEq, Repr

/-- An outstanding remote operation at its source (R523, R535). -/
structure RemoteOp where
  rtag : BitVec 16
  node : BitVec 18
  hart : Hart
  op : Byte
  win : BitVec 4
  addr : Datum
  words : List Word
  dest : Dest
  priv : BitVec 2
  gen : BitVec 16
  deriving DecidableEq, Repr

/-- A record accepted at the home, or a response accepted at the source, waiting to be performed in order (R530). -/
structure HomeRec where
  src : BitVec 18
  cage : Bool
  rcd : Record
  /-- accepted before a flip of its window's context that is not yet complete (R481) -/
  before : Bool := false
  /-- the access is performed and its result waits for a heal (R481) -/
  got : Option Word := none
  deriving DecidableEq, Repr

/-- One direction pair of a stream with a peer (R529–R531). -/
structure Stream where
  nextSeq : BitVec 32
  expect : BitVec 32
  unacked : List Frame
  ahead : List Frame
  tries : Sparse Nat
  /-- the peer's initial sequence number is known -/
  synced : Bool
  deriving DecidableEq, Repr

/-- A peer context (R525). -/
structure Peer where
  enabled : Bool
  planes : BitVec 4
  down : BitVec 4
  session : BitVec 16
  theirs : Option (BitVec 16)
  up : Bool
  gen : Stream
  cage : Stream
  /-- records waiting for a session or for room among 256 unacknowledged frames (R531) -/
  waiting : List Frame
  deriving DecidableEq, Repr

/-- A message of a thread for the Cage: its kind (0 ARRIVE, 1 ALERT), group, sender and datum (R496). -/
structure CageMsg where
  kind : BitVec 2
  g : BitVec 4
  hart : Hart
  datum : Datum
  deriving DecidableEq, Repr

/-- An injection held for a token (R505): a thread's message, or what a collector's flip controller or engine sends: a flip
announcement of a context, an engine's part of a combining round, or a job record to a node (R475). -/
inductive HeldMsg where
  | thread (m : CageMsg)
  | announce (k : Nat)
  | round (k : Nat)
  | job (node : BitVec 18) (r : Record)
  deriving DecidableEq, Repr

/-- The nodes of a Cage rail (R489). -/
inductive CageNode where
  | cluster (k : BitVec 6) | tile (t : BitVec 3) | root
  deriving DecidableEq, Repr

/-- An entry queued at a node of a rail (R489–R491), or in the CTRL class of the mesh where `rail` is none (R36): its key, and
the messages merged in it, each with its injection number. -/
structure Flit where
  rail : Option Bool
  node : CageNode
  kind : BitVec 2
  g : BitVec 4
  parts : List (Nat × Hart × Datum)
  deriving DecidableEq, Repr

/-- A combining round (R499): the contributions merged at the root. -/
structure Round where
  contrib : List (Hart × Datum)
  deriving DecidableEq, Repr

/-- A TARGET region of a relocation: its heap index, generation and next free word (R466). -/
structure Target where
  region : Nat
  gen : BitVec 2
  next : Nat
  deriving DecidableEq, Repr

/-- The work of a collector context that no register holds (R459–R474). -/
structure SluCtx where
  writing : Bool
  armedOp : BitVec 2
  announce : BitVec 64
  ack : BitVec 64
  remapSweep : Bool
  /-- a Sluice or Stope mark, or a heal in progress, since the last termination round -/
  active : Bool
  quiet : Nat
  /-- the same since the job-wide round before, and the number of the round now out, of which 0 is none (R465, R546) -/
  stirred : Bool
  wave : BitVec 16
  /-- clusters brought from RETAIN to ON for their sweeps (R472) -/
  woken : BitVec 64
  ranges : List (Nat × Nat)
  /-- objects queued for tracing, with their pointers' types -/
  queue : List (PA × BitVec 6)
  /-- objects marked in this cycle -/
  objs : List (PA × BitVec 6)
  targets : List Target
  evac : List Nat
  rootsErr : Bool
  /-- a copy of this generation waits for a region to become FREE (R723) -/
  stall : Option (BitVec 2)
  deriving DecidableEq, Repr

/-- A fast-clear operation in progress at a controller (R418). -/
structure FcOp where
  retag : Bool
  tag : Byte
  start : Nat
  len : Nat
  deriving DecidableEq, Repr

/-- A Blend load in progress on a cluster (R262): the fetched microwords and where they go. -/
structure BlendXfer where
  dst : Nat
  words : List (BitVec 144)
  deriving DecidableEq, Repr

/-- A host-window load waiting for its completion (R570, R571). -/
structure HostLoad where
  hart : Hart
  pa : PA
  rd : BitVec 6
  preg : Nat
  deriving DecidableEq, Repr

/-- A host-to-module DMA descriptor whose read requests are outstanding (R575). -/
structure DmaRead where
  q : Nat
  slot : PA
  len : Nat
  haddr : Datum
  maddr : PA
  irq : Bool
  done : Nat
  deriving DecidableEq, Repr

/-- An IDE stream (R580, R581): its key sets and whether it is secure. -/
structure IdeStream where
  id : BitVec 8
  keys : Sparse (List Byte)
  secure : Bool
  deriving DecidableEq, Repr

/-- An SPDM session (R595): its identifier, its path, whether FINISH has completed it, and its key generation. -/
structure SpdmSession where
  id : BitVec 16
  i3c : Bool
  done : Bool
  keyGen : Nat
  deriving DecidableEq, Repr

/-- An SPDM connection on one path: the steps already answered (R595). -/
structure SpdmConn where
  version : Bool
  caps : Bool
  algs : Bool
  deriving DecidableEq, Repr

/-- A debug session (R603–R607): its class, VMID, cluster mask, SPDM session and the clusters it is suspended in. -/
structure DbgSession where
  id : Nat
  cls : BitVec 2
  vmid : BitVec 12
  clusters : BitVec 64
  spdm : BitVec 16
  susp : BitVec 64
  deriving DecidableEq, Repr

/-- A Canary entry's four words (R645). -/
structure Entry where
  w0 : Datum
  w1 : Datum
  p0 : Datum
  p1 : Datum
  deriving DecidableEq, Repr

/-- A Canary snapshot slot in NVM (R657): descriptor fields, and the rings' entries oldest first, I/O die first. -/
structure Snapshot where
  commit : BitVec 32
  trig : Byte
  late : Byte
  lifecycle : Byte
  valid : Bool
  prot : Bool
  time : BitVec 96
  locked : Bool
  source : Datum
  lost : List Nat
  rings : List (List Entry)
  deriving DecidableEq, Repr

/-- The Canary (R643–R659): rings (0–7 the tiles, 8 the I/O die), sequence counters, freeze and commit state. -/
structure Canary where
  rings : Sparse (List Entry)
  seqs : Sparse (BitVec 32)
  frozen : Bool
  /-- the snapshot of the freeze in progress -/
  staging : Option Snapshot
  /-- the staging buffer as last staged (R671) -/
  staged : List (List Entry)
  lost : Sparse Nat
  slots : Sparse Snapshot
  commits : BitVec 32
  cmd : Option (BitVec 3)
  /-- tiles whose RING_LOST entry waits for the rings to resume (R644) -/
  owed : List (Nat × Nat)
  deriving DecidableEq, Repr

/-- The time unit (R548–R556): the counter, the servo's working values and the PTP exchange. -/
structure TimeUnit where
  counter : BitVec 96
  adjPpb : Int
  residue : Nat
  inRange : Nat
  nowHi : BitVec 32
  set : Option (BitVec 48)
  t1 : Int
  t2 : Int
  t3 : Int
  delay : Option Int
  lastPps : Option (BitVec 96)
  age : Int
  everMeasured : Bool
  deriving DecidableEq, Repr

/-- The PCIe endpoint (R559–R581); `perst` is PERST_N held asserted. -/
structure Pcie where
  released : Bool
  linkUp : Bool
  perst : Bool
  msix : Sparse (Datum × Datum)
  pba : List Nat
  loads : List HostLoad
  reads : List DmaRead
  doeBusy : Bool
  ide : List IdeStream
  deriving DecidableEq, Repr

/-- The Headframe's working state (R582–R607). -/
structure Headframe where
  step : Nat
  halted : Option Nat
  hart0 : Bool
  maint : Bool
  bootHold : Bool
  slots : Sparse (BitVec 384)
  ownerKey : Option (BitVec 384)
  blendKey : Option (BitVec 384)
  himageKey : Option (BitVec 384)
  /-- the fuse counters of the vendor images (R584), by image -/
  fuses : Sparse Nat
  lifecycle : Lifecycle
  next : Option Lifecycle
  record : Bool
  transLeft : Nat
  conns : Sparse SpdmConn
  sessions : List SpdmSession
  nonces : List (BitVec 256)
  dbgs : List DbgSession
  opened : Nat
  i3cAddr : Option (BitVec 7)
  /-- a reset request waits for a mode that acts on it (R704) -/
  resetHeld : Bool
  deriving DecidableEq, Repr

/-- NVM (R641, R642): UCAL and AGE, the training cache's validity, the block map and write counts, the blocks retired, and the
logical blocks whose block was retired with no replacement (R718). -/
structure Nvm where
  ucal : Sparse Int
  /-- UCAL as the last pass through BOOT read it (R637) -/
  live : Sparse Int
  /-- AGE as last written (R638, R639) -/
  age : Int
  trained : Bool
  map : Sparse Nat
  writes : Sparse Nat
  retired : List Nat
  dead : List Nat
  deriving DecidableEq, Repr

/-- Power, clocks and temperature (R613–R630). -/
structure Power where
  doms : Sparse Dom
  /-- the request PWR_DOM_REQ holds: domain and target -/
  req : Option (Nat × Dom)
  thermal : Sparse Nat
  power : Sparse Nat
  firstUse : Sparse Nat
  droops : Sparse Nat
  temps : Sparse (BitVec 16)
  inputW : Nat
  vinMv : Nat
  aux : Bool
  vinStable : Bool
  refLost : Bool
  /-- the tiles shed, and the domains a mode change has put in RETAIN (R618, R620) -/
  shed : BitVec 8
  parked : List Nat
  /-- the millisecond in which a tile's thermal limit last rose (R625) -/
  raised : Sparse Nat
  deriving DecidableEq, Repr

/-- The pins: levels of the inputs and of the outputs the module drives (R695, R699), the straps as sampled (R700) and
the straps' present levels. -/
structure Pins where
  pwrEn : Bool
  modRstN : Bool
  pwrFailN : Bool
  pwrGood : Bool
  faultN : Bool
  alertN : Bool
  thermtripN : Bool
  bootSel : BitVec 2
  slotId : BitVec 6
  deriving DecidableEq, Repr

/-- The test access port (R668): the selected instruction, the boundary cells and the preloaded cells. -/
structure Tap where
  ir : Byte
  cells : BitVec 32
  preload : BitVec 32
  dr : BitVec 32
  deriving DecidableEq, Repr

/-- What the module has put on its links, oldest last: the host, the network, the SPDM paths and the pins see these. -/
inductive Out where
  | msix (vec : Nat)
  | hostRead (reqid : BitVec 16) (data : List Byte) (ep : Bool)
  | hostUR (reqid : BitVec 16)
  | configRetry
  | configOk
  | hostWindowRead (addr : Datum)
  | hostWindowWrite (addr : Datum) (d : Datum)
  | dmaRead (q : Nat) (addr : Datum) (len : Nat)
  | dmaWrite (q : Nat) (addr : Datum) (data : List Byte) (ep : Bool)
  | frame (port : Nat) (bytes : List Byte)
  | ptpDelayReq (port : Nat) (header : List Byte)
  | ppsOut
  | spdm (p : SpdmPath) (data : List Byte)
  | spdmError (p : SpdmPath)
  | doe (data : List Byte)
  | debug (s : Nat) (data : List Datum)
  | debugError (s : Nat)
  | i3cId (pid : BitVec 48)
  deriving DecidableEq, Repr

/-- The module (R18, R84 and the chapters named at each field). -/
structure Chip where
  /-- operating mode, the mode before it (PWR_MODE.PREV), and the mode QUIESCED or SURVIVAL was entered from -/
  mode : Mode
  prev : Mode
  entered : Mode
  /-- a fault of R36 recorded while QUIESCED, SURVIVAL or BOOT (R39) -/
  faulted : Bool
  /-- as fused (R683): CAP = 1 and LID = 1 -/
  cap128 : Bool
  lidB : Bool
  harts : Sparse HartSt
  /-- datum bytes at their PA, tag bytes at their aperture address (R398) -/
  mem : List Host.Cell
  sb : List SbEntry
  caches : Caches
  tlb : List TlbEntry
  /-- cached table entries of levels 0 and 1 (R342, R344) -/
  tables : List TableEntry
  latent : List Latent
  /-- failed controllers and Drift ports, lost cores, clusters whose spare is in use (R31, R36) -/
  ctlFailed : BitVec 9
  portFailed : BitVec 4
  coresLost : List Nat
  spared : List Nat
  /-- cores that failed the retry of an instruction, to be spared (R30) -/
  faulty : List Nat
  /-- register pages by BAR0 offset (R682) -/
  pages : Sparse Datum
  /-- pages whose interrupt is asserted (R681), by page offset -/
  asserted : List Nat
  fc : Sparse FcOp
  /-- patch RAM and Blend store microwords (R220): patch at 0x3000 + i; Blend at cluster × 2^14 + address -/
  patch : Sparse (BitVec 144)
  /-- patch match entries written (R223): valid, ROM and patch microaddress -/
  matchTable : Sparse (BitVec 29)
  blend : Sparse (BitVec 144)
  blendVmid : Sparse (BitVec 12)
  blendBad : List Nat
  xfers : Sparse BlendXfer
  unitStores : Sparse (BitVec 128)
  unitWaits : List (Sequencer × UnitWait)
  /-- the word a unit context whose wait expired has branched to (R238) -/
  unitWords : List (Sequencer × Nat)
  stope : List StopeReq
  slu : Sparse SluCtx
  rounds : Sparse Round
  cageMsgs : List Flit
  /-- injections so far, and those the root has acted on while another copy is in flight (R490) -/
  injections : Nat
  acted : List Nat
  alerts : List (BitVec 4 × Hart × BitVec 32)
  /-- tokens missing from a bucket of two (R504), by source: a hart, 2048 + t for the engine of SLU_t, 2056 for the flip
  controller -/
  tokens : Sparse Nat
  held : List (Nat × HeldMsg)
  peers : Sparse Peer
  remote : List RemoteOp
  /-- SENDs accepted at their home whose slots may still be voided there (R543, R545) -/
  sends : List RemoteOp
  /-- RTAG of the message in a ring slot, by the slot's PA (R543) -/
  slotTags : Sparse (BitVec 16)
  home : List HomeRec
  heldMarks : List HomeRec
  /-- job members' flip acknowledgements by context, each node + 2^18 × epoch, and the answers to the job-wide round out,
  each node × 2 + busy (R474, R546) -/
  acked : Sparse (List Nat)
  termReplies : Sparse (List Nat)
  time : TimeUnit
  pcie : Pcie
  hdf : Headframe
  nvm : Nvm
  power : Power
  pins : Pins
  /-- a machine check since the last pass through BOOT (R699) -/
  mcSeen : Bool
  canary : Canary
  tap : Tap
  /-- records in the trace buffer so far, per tile since the last time sync (R666) -/
  traceSync : Sparse Nat
  out : List Out
  /-- the model's own counter of free values -/
  fresh : Nat
  deriving DecidableEq, Repr

/-- The module and the commands waiting, first in, first out. -/
structure State where
  chip : Chip
  pending : List Instr
  deriving DecidableEq, Repr

/-- The reasons a step may stop with a fault. The manual gives every failure of the module an effect in its state (a
trap, a halted thread, an error code, a refused command), so no meaning raises one. -/
inductive Fault where
  /-- Raised by nobody: safe. -/
  | none
  deriving DecidableEq, Repr

/-- The reasons a step may refuse a command, by name. -/
inductive Refusal where
  /-- Raised by a refused arm of `exec` for a command without a meaning: safe. -/
  | notModelled (mnemonic : String)
  /-- Raised by D3_ACCESS writing the Headframe or a scan chain, whose contents the manual does not describe (R660):
  safe. -/
  | headframeInternals
  deriving DecidableEq, Repr

/-- A hart that has never been released: the reset state of R132, not started (DESIGN CHOICE, log 4). -/
def HartSt.reset : HartSt where
  run := .off
  wait := none
  insn := 0
  pc := 0
  regs := []
  bad := []
  spr := []
  landings := []
  tub := []
  resv := none
  tram := ⟨0, 0, 0, 0, 0, 0, 0, false, false⟩
  micro := none
  nest := []
  lazyU := ⟨0, ⟨3, 0, 0, 0, 0⟩⟩
  lazyL := ⟨0, ⟨3, 0, 0, 0, 0⟩⟩
  pMc := none
  pHe := none
  pSn := none
  pCage := []
  dse := none
  epoch := 0
  good := 1
  sweep := false
  timerArmed := false
  stepDue := false
  dbgSkip := false
  haltReq := false
  dbgStep := false
  sbp := []
  swp := []
  before := .off
  dbgBefore := .run

/-- The module when the first software instruction or host access can reach a page (R14): in BOOT at step 7, host link
released, memory clear (R82), every domain ON (PWR_DOM_STATE), hart 0 not yet started
(DESIGN CHOICE, log 2) (DESIGN CHOICE, log 3) (DESIGN CHOICE, log 9). -/
def Chip.reset : Chip where
  mode := .boot
  prev := .standby
  entered := .boot
  faulted := false
  cap128 := false
  lidB := false
  harts := []
  mem := []
  sb := []
  caches := ⟨[], [], [], []⟩
  tlb := []
  tables := []
  latent := []
  ctlFailed := 0
  portFailed := 0
  coresLost := []
  spared := []
  faulty := []
  pages := []
  asserted := []
  fc := []
  patch := []
  matchTable := []
  blend := []
  blendVmid := []
  blendBad := []
  xfers := []
  unitStores := []
  unitWaits := []
  unitWords := []
  stope := []
  slu := []
  rounds := []
  cageMsgs := []
  injections := 0
  acted := []
  alerts := []
  tokens := []
  held := []
  peers := []
  remote := []
  sends := []
  slotTags := []
  home := []
  heldMarks := []
  acked := []
  termReplies := []
  time := { counter := 0, adjPpb := 0, residue := 0, inRange := 0, nowHi := 0, set := none, t1 := 0,
            t2 := 0, t3 := 0, delay := none, lastPps := none, age := 0, everMeasured := false }
  pcie := { released := true, linkUp := true, perst := false, msix := [], pba := [], loads := [], reads := [],
            doeBusy := false, ide := [] }
  hdf := { step := 7, halted := none, hart0 := false, maint := false, bootHold := false, slots := [],
           ownerKey := some 0, blendKey := none, himageKey := none, fuses := [], lifecycle := .deployed, next := none, record := true,
           transLeft := 62, conns := [], sessions := [], nonces := [], dbgs := [], opened := 0, i3cAddr := none,
           resetHeld := false }
  nvm := { ucal := [], live := [], age := 0, trained := true, map := [], writes := [], retired := [], dead := [] }
  power := { doms := [], req := none, thermal := [], power := [], firstUse := [], droops := [], temps := [],
             inputW := 0, vinMv := 48000, aux := true, vinStable := true, refLost := false, shed := 0,
             parked := [], raised := [] }
  pins := { pwrEn := true, modRstN := true, pwrFailN := true, pwrGood := true, faultN := true, alertN := true,
            thermtripN := true, bootSel := 0, slotId := 0 }
  mcSeen := false
  canary := { rings := [], seqs := [], frozen := false, staging := none, staged := [], lost := [], slots := [],
              commits := 0, cmd := none, owed := [] }
  tap := { ir := 1, cells := 0, preload := 0, dr := 0 }
  traceSync := []
  out := []
  fresh := 0

/-- The state after reset: the module of `Chip.reset` and no command waiting (DESIGN CHOICE, log 2). -/
def State.reset : State where
  chip := Chip.reset
  pending := []

end Sys2Proof.Machine
end

