-- ==== Sys2Proof/Machine/RegTable.lean ====
section
/-! DEFINITION. The register pages: where each lies (R682), who may reach it (R674), and the fields of every register
(R12, R13) with their access codes and reset values. -/
namespace Sys2Proof.Machine

/-- Access codes (R13). -/
inductive Acc where
  | ro | rov | rw | rw1c | rw1s | wo | rwl | rsv
  deriving DecidableEq, Repr

/-- A field: its high and low bit, access code and reset value (R12). -/
structure Fld where
  hi : Nat
  lo : Nat
  acc : Acc
  reset : Nat
  deriving DecidableEq, Repr

/-- The blocks of the page index (R682). -/
inductive Blk where
  | hdf | sec | pwr | clk | cal | nvm | lmp | tim | pci | dbg | can | typ | thm | mem | cad | dft | slu | til | fab | stp
  | cge | clu | cor | bld
  deriving DecidableEq, Repr

/-- Block code, instances and BASE of each block (R682). -/
def Blk.index : Blk → Nat × Nat × Nat
  | .hdf => (0x01, 1, 0x000000) | .sec => (0x02, 1, 0x001000) | .pwr => (0x13, 1, 0x002000)
  | .clk => (0x14, 1, 0x003000) | .cal => (0x16, 1, 0x004000) | .nvm => (0x17, 1, 0x005000)
  | .lmp => (0x18, 1, 0x006000) | .tim => (0x0F, 1, 0x007000) | .pci => (0x10, 1, 0x008000)
  | .dbg => (0x11, 1, 0x009000) | .can => (0x12, 1, 0x00A000) | .typ => (0x07, 1, 0x00B000)
  | .thm => (0x15, 9, 0x010000) | .mem => (0x09, 9, 0x020000) | .cad => (0x0A, 9, 0x030000)
  | .dft => (0x0E, 5, 0x040000) | .slu => (0x08, 9, 0x050000) | .til => (0x03, 8, 0x060000)
  | .fab => (0x0C, 23, 0x080000) | .stp => (0x0B, 72, 0x100000) | .cge => (0x0D, 65, 0x200000)
  | .clu => (0x04, 64, 0x300000) | .cor => (0x05, 64, 0x400000) | .bld => (0x06, 64, 0x500000)

/-- Every block, in the order of the page index (R682). -/
def Blk.all : List Blk :=
  [.hdf, .sec, .pwr, .clk, .cal, .nvm, .lmp, .tim, .pci, .dbg, .can, .typ, .thm, .mem, .cad, .dft, .slu, .til, .fab,
   .stp, .cge, .clu, .cor, .bld]

/-- The BAR0 offset of instance i of a block (R682). -/
def Blk.base (b : Blk) (i : Nat) : Nat := b.index.2.2 + 0x1000 * i

/-- The page an offset of the register range lies in (R682). -/
def pageAt (o : Nat) : Option (Blk × Nat) :=
  match Blk.all.find? (fun b => decide (b.base 0 ≤ o) && decide (o < b.base b.index.2.1)) with
  | some b => some (b, (o - b.base 0) / 0x1000)
  | none => none

/-- The switched domain of a page (R682); none for the always-on island, 96 for the I/O die. -/
def Blk.dom (b : Blk) (i : Nat) : Option Nat :=
  let cl := 10 * (i / 8) + i % 8
  match b with
  | .pci => some 93
  | .mem | .cad => some (80 + i)
  | .stp => some (80 + i / 8)
  | .dft => some (if i < 4 then 89 + i else 96)
  | .slu => some (if i < 8 then 10 * i + 9 else 96)
  | .til => some (10 * i + 8)
  | .fab => some (if i < 8 then 10 * i + 8 else if i < 17 then 80 + (i - 8) else if i < 21 then 89 + (i - 17)
                  else if i < 22 then 93 else 96)
  | .cge => some (if i < 64 then cl else 96)
  | .clu | .cor | .bld => some cl
  | _ => none

/-- Least privilege of a thread read and of a thread write (R682). -/
def Blk.privs : Blk → BitVec 2 × BitVec 2
  | .sec | .bld => (3, 3)
  | .cor => (1, 1)
  | _ => (1, 3)

/-- What the host may do: 0 nothing, 1 read, 2 read and write (R682); SEC is written only under R587. -/
def Blk.host : Blk → Nat
  | .bld => 0
  | .pwr | .cal | .lmp | .pci | .mem | .sec => 2
  | _ => 1

/-- TYP_ROW[n], user rows (n = 0x20–0x3F) (R46). -/
def typRow (disp : Nat) : List Fld :=
  [⟨63, 42, .rsv, 0x0⟩, ⟨41, 32, .rwl, disp⟩, ⟨31, 8, .rsv, 0x0⟩,
   ⟨7, 7, .rwl, 0x0⟩, ⟨6, 6, .rwl, 0x1⟩, ⟨5, 5, .rwl, 0x0⟩,
   ⟨4, 4, .ro, 0x0⟩, ⟨3, 3, .rwl, 0x0⟩, ⟨2, 2, .ro, 0x0⟩,
   ⟨1, 1, .ro, 0x0⟩, ⟨0, 0, .ro, 0x1⟩]

/-- CORE_CFG_c (CLU page, offset 0x100 + 8 × c) (R168). -/
def coreCfg : List Fld :=
  [⟨63, 2, .rsv, 0x0⟩, ⟨1, 1, .rw1s, 0x0⟩, ⟨0, 0, .rw, 0x0⟩]

/-- L2_WAYLOCK (CLU page, offset 0x140) (R388). -/
def wayLock : List Fld :=
  [⟨63, 21, .rsv, 0x0⟩, ⟨20, 20, .rw, 0x0⟩, ⟨19, 19, .rsv, 0x0⟩,
   ⟨18, 16, .rw, 0x0⟩, ⟨15, 8, .rsv, 0x0⟩, ⟨7, 0, .rw, 0x0⟩]

/-- CLU_IPI (CLU page, offset 0x148) (R684). -/
def cluIpi : List Fld :=
  [⟨63, 32, .rsv, 0x0⟩, ⟨31, 0, .wo, 0x0⟩]

/-- BLD_SRC (BLD page, offset 0x100) (R256). -/
def bldSrc : List Fld :=
  [⟨63, 52, .rsv, 0x0⟩, ⟨51, 6, .rw, 0x0⟩, ⟨5, 0, .rsv, 0x0⟩]

/-- BLD_XFER (BLD page, offset 0x108) (R257). -/
def bldXfer : List Fld :=
  [⟨63, 63, .wo, 0x0⟩, ⟨62, 44, .rsv, 0x0⟩, ⟨43, 32, .rw, 0x0⟩,
   ⟨31, 11, .rsv, 0x0⟩, ⟨10, 0, .rw, 0x0⟩]

/-- BLD_OWNER (BLD page, offset 0x110) (R258). -/
def bldOwner : List Fld :=
  [⟨63, 13, .rsv, 0x0⟩, ⟨12, 12, .rw1s, 0x0⟩, ⟨11, 0, .rw, 0x0⟩]

/-- BLD_STATUS (BLD page, offset 0x118) (R259). -/
def bldStatus : List Fld :=
  [⟨63, 16, .rsv, 0x0⟩, ⟨15, 8, .rov, 0x0⟩, ⟨7, 4, .rov, 0x0⟩,
   ⟨3, 2, .rsv, 0x0⟩, ⟨1, 1, .rw1c, 0x0⟩, ⟨0, 0, .rov, 0x0⟩]

/-- BLD_DIGEST_k (BLD page, offsets 0x120–0x148) (R260). -/
def bldDigest : List Fld :=
  [⟨63, 0, .rov, 0x0⟩]

/-- MEM_SCRUB_CTL (MEM page, offset 0x118) (R412). -/
def scrubCtl : List Fld :=
  [⟨63, 17, .rsv, 0x0⟩, ⟨16, 16, .rw, 0x1⟩, ⟨15, 0, .rw, 0x2D0⟩]

/-- MEM_SCRUB_STATUS (MEM page, offset 0x120) (R413). -/
def scrubStatus : List Fld :=
  [⟨63, 48, .rov, 0x0⟩, ⟨47, 32, .rov, 0x0⟩, ⟨31, 0, .rov, 0x0⟩]

/-- MEM_FC_START (MEM page, offset 0x100) (R415). -/
def fcStart : List Fld :=
  [⟨63, 38, .rsv, 0x0⟩, ⟨37, 6, .rw, 0x0⟩, ⟨5, 0, .rsv, 0x0⟩]

/-- MEM_FC_LEN (MEM page, offset 0x108) (R416). -/
def fcLen : List Fld :=
  [⟨63, 39, .rsv, 0x0⟩, ⟨38, 6, .rw, 0x0⟩, ⟨5, 0, .rsv, 0x0⟩]

/-- MEM_FC_CTL (MEM page, offset 0x110) (R417). -/
def fcCtl : List Fld :=
  [⟨63, 63, .wo, 0x0⟩, ⟨62, 50, .rsv, 0x0⟩, ⟨49, 48, .rw, 0x0⟩,
   ⟨47, 40, .rw, 0x0⟩, ⟨39, 8, .rsv, 0x0⟩, ⟨7, 4, .rov, 0x0⟩,
   ⟨3, 2, .rsv, 0x0⟩, ⟨1, 1, .rw1c, 0x0⟩, ⟨0, 0, .rov, 0x0⟩]

/-- CTX_CFG_c (SLU_8, offset 0x100 + 0x80 × c) (R483). -/
def ctxCfg : List Fld :=
  [⟨63, 63, .rw, 0x0⟩, ⟨62, 62, .rw, 0x0⟩, ⟨61, 60, .rsv, 0x0⟩,
   ⟨59, 58, .rw, 0x0⟩, ⟨57, 56, .rsv, 0x0⟩, ⟨55, 48, .rw, 0x19⟩,
   ⟨47, 31, .rw, 0x400⟩, ⟨30, 12, .rsv, 0x0⟩, ⟨11, 0, .rw, 0x0⟩]

/-- HEAP_MAP_c (SLU_8, offset 0x108 + 0x80 × c) (R483). -/
def heapMap : List Fld :=
  [⟨63, 47, .rw, 0x0⟩, ⟨46, 30, .rw, 0x0⟩, ⟨29, 0, .rw, 0x0⟩]

/-- MARK_BASE_c and CARD_BASE_c (SLU_8, offsets 0x110 and 0x118 + 0x80 × c) (R483). -/
def base16 : List Fld :=
  [⟨63, 52, .rsv, 0x0⟩, ⟨51, 16, .rw, 0x0⟩, ⟨15, 0, .rsv, 0x0⟩]

/-- ROOT_LIST_c (SLU_8, offset 0x120 + 0x80 × c) (R484). -/
def rootList : List Fld :=
  [⟨63, 52, .rsv, 0x0⟩, ⟨51, 3, .rw, 0x0⟩, ⟨2, 0, .rsv, 0x0⟩]

/-- FLIP_AT_c (SLU_8, offset 0x128 + 0x80 × c) (R484). -/
def flipAt : List Fld :=
  [⟨63, 0, .rw, 0x0⟩]

/-- CMD_c (SLU_8, offset 0x130 + 0x80 × c) (R484). -/
def sluCmd : List Fld :=
  [⟨63, 63, .wo, 0x0⟩, ⟨62, 9, .rsv, 0x0⟩, ⟨8, 8, .wo, 0x0⟩,
   ⟨7, 2, .rsv, 0x0⟩, ⟨1, 0, .wo, 0x0⟩]

/-- STATUS_c (SLU_8, offset 0x138 + 0x80 × c) (R485). -/
def sluStatus : List Fld :=
  [⟨63, 48, .rov, 0x0⟩, ⟨47, 46, .rov, 0x1⟩, ⟨45, 43, .rov, 0x0⟩,
   ⟨42, 42, .rov, 0x0⟩, ⟨41, 41, .rov, 0x0⟩, ⟨40, 40, .rov, 0x0⟩,
   ⟨39, 39, .rov, 0x0⟩, ⟨38, 38, .rov, 0x0⟩, ⟨37, 34, .rov, 0x0⟩,
   ⟨33, 17, .rov, 0x0⟩, ⟨16, 0, .rsv, 0x0⟩]

/-- JOB_c (SLU_8, offset 0x140 + 0x80 × c) (R485). -/
def jobReg : List Fld :=
  [⟨63, 63, .rw, 0x0⟩, ⟨62, 62, .rw, 0x0⟩, ⟨61, 44, .rw, 0x0⟩,
   ⟨43, 26, .rw, 0x0⟩, ⟨25, 8, .rov, 0x0⟩, ⟨7, 0, .rsv, 0x0⟩]

/-- RGN_CMD_c (SLU_8, offset 0x148 + 0x80 × c) (R485). -/
def rgnCmd : List Fld :=
  [⟨63, 63, .wo, 0x0⟩, ⟨62, 60, .rw, 0x0⟩, ⟨59, 58, .rw, 0x0⟩,
   ⟨57, 57, .rov, 0x0⟩, ⟨56, 53, .rov, 0x0⟩, ⟨52, 51, .rsv, 0x0⟩,
   ⟨50, 34, .rov, 0x0⟩, ⟨33, 17, .rsv, 0x0⟩, ⟨16, 0, .rw, 0x0⟩]

/-- REGION_BASE (SLU_8, offset 0x900) (R485). -/
def regionBase : List Fld :=
  [⟨63, 52, .rsv, 0x0⟩, ⟨51, 20, .rwl, 0x0⟩, ⟨19, 0, .rsv, 0x0⟩]

/-- GRP_CFG_g (CGE_64, offset 0x100 + 8 × g) (R492). -/
def grpCfg : List Fld :=
  [⟨63, 63, .rw, 0x0⟩, ⟨62, 48, .rsv, 0x0⟩, ⟨47, 32, .rov, 0x0⟩,
   ⟨31, 28, .rsv, 0x0⟩, ⟨27, 16, .rw, 0x0⟩, ⟨15, 4, .rsv, 0x0⟩,
   ⟨3, 3, .rov, 0x0⟩, ⟨2, 0, .rw, 0x0⟩]

/-- GRP_MEMBERS_g (CGE_k, offset 0x100 + 8 × g) (R493). -/
def grpMembers : List Fld :=
  [⟨63, 32, .rsv, 0x0⟩, ⟨31, 0, .rw, 0x0⟩]

/-- CGE_THROTTLE (CGE_k, offset 0x180) (R506). -/
def throttle : List Fld :=
  [⟨63, 32, .rsv, 0x0⟩, ⟨31, 0, .rw1c, 0x0⟩]

/-- RAIL_STATUS (CGE_64, offset 0x200) (R510). -/
def railStatus : List Fld :=
  [⟨63, 48, .rov, 0x0⟩, ⟨47, 32, .rov, 0x0⟩, ⟨31, 10, .rsv, 0x0⟩,
   ⟨9, 8, .rov, 0x1⟩, ⟨7, 2, .rsv, 0x0⟩, ⟨1, 0, .rov, 0x1⟩]

/-- DRIFT_CFG (DFT_4, offset 0x100) (R521). -/
def driftCfg : List Fld :=
  [⟨63, 63, .rw, 0x0⟩, ⟨62, 62, .rw, 0x1⟩, ⟨61, 44, .rw, 0x0⟩,
   ⟨43, 28, .rw, 0x88B5⟩, ⟨27, 16, .rw, 0x1⟩, ⟨15, 13, .rw, 0x6⟩,
   ⟨12, 10, .rw, 0x4⟩, ⟨9, 7, .rw, 0x2⟩, ⟨6, 0, .rsv, 0x0⟩]

/-- GWIN_CTL_c (DFT_4, offset 0x140 + 0x18 × c) (R522). -/
def gwinCtl : List Fld :=
  [⟨63, 63, .rw, 0x0⟩, ⟨62, 62, .rw, 0x0⟩, ⟨61, 61, .rw, 0x0⟩,
   ⟨60, 9, .rsv, 0x0⟩, ⟨8, 0, .rw, 0x0⟩]

/-- ASID (special register 0x007) (R320). -/
def asidReg : List Fld :=
  [⟨63, 52, .rsv, 0x0⟩, ⟨51, 16, .rw, 0x0⟩, ⟨15, 0, .rw, 0x0⟩]

/-- VMID (special register 0x110) (R321). -/
def vmidReg : List Fld :=
  [⟨63, 52, .rsv, 0x0⟩, ⟨51, 16, .rw, 0x0⟩, ⟨15, 12, .rsv, 0x0⟩,
   ⟨11, 0, .rw, 0x0⟩]

/-- PEER_CMD (DFT_4, offset 0x110) (R525). -/
def peerCmd : List Fld :=
  [⟨63, 63, .wo, 0x0⟩, ⟨62, 60, .rw, 0x0⟩, ⟨59, 56, .rw, 0xF⟩,
   ⟨55, 55, .rov, 0x0⟩, ⟨54, 51, .rov, 0x0⟩, ⟨50, 18, .rsv, 0x0⟩,
   ⟨17, 0, .rw, 0x0⟩]

/-- RTO_CFG (DFT_4, offset 0x118) (R531). -/
def rtoCfg : List Fld :=
  [⟨63, 48, .rsv, 0x0⟩, ⟨47, 32, .rw, 0x40⟩, ⟨31, 16, .rw, 0x3E8⟩,
   ⟨15, 0, .rw, 0x14⟩]

/-- MSG_RING, Q_RING_q and REFUSE_RING (R541). -/
def qRing : List Fld :=
  [⟨63, 48, .rw, 0x0⟩, ⟨47, 44, .rw, 0x0⟩, ⟨43, 40, .rw, 0x0⟩,
   ⟨39, 0, .rw, 0x0⟩]

/-- MSG_RING, Q_RING_q and REFUSE_RING (R541). -/
def refuseRing : List Fld :=
  [⟨63, 48, .rsv, 0x0⟩, ⟨47, 44, .rw, 0x0⟩, ⟨43, 40, .rsv, 0x0⟩,
   ⟨39, 0, .rw, 0x0⟩]

/-- MSG_PTR, Q_PTR_q and REFUSE_PTR (R541). -/
def ringPtr : List Fld :=
  [⟨63, 32, .rov, 0x0⟩, ⟨31, 0, .rw, 0x0⟩]

/-- PORT_STATUS (DFT_p, offset 0x100) (R547). -/
def portStatus : List Fld :=
  [⟨63, 48, .rov, 0x0⟩, ⟨47, 32, .rov, 0x0⟩, ⟨31, 22, .rsv, 0x0⟩,
   ⟨21, 20, .rov, 0x0⟩, ⟨19, 18, .rsv, 0x0⟩, ⟨17, 17, .rov, 0x0⟩,
   ⟨16, 16, .rov, 0x0⟩, ⟨15, 10, .rsv, 0x0⟩, ⟨9, 8, .rov, 0x0⟩,
   ⟨7, 0, .rsv, 0x0⟩]

/-- TIM_STATUS (TIM page, offset 0x100) (R550). -/
def timStatus : List Fld :=
  [⟨63, 32, .rov, 0x0⟩, ⟨31, 12, .rsv, 0x0⟩, ⟨11, 10, .rov, 0x0⟩,
   ⟨9, 9, .rw1c, 0x0⟩, ⟨8, 8, .rov, 0x0⟩, ⟨7, 3, .rsv, 0x0⟩,
   ⟨2, 2, .rov, 0x0⟩, ⟨1, 1, .rov, 0x0⟩, ⟨0, 0, .rov, 0x0⟩]

/-- TIM_CTL (TIM page, offset 0x108) (R551). -/
def timCtl : List Fld :=
  [⟨63, 63, .rw, 0x0⟩, ⟨62, 56, .rw, 0x0⟩, ⟨55, 52, .rw, 0xF⟩,
   ⟨51, 50, .rw, 0x2⟩, ⟨49, 49, .rw, 0x0⟩, ⟨48, 48, .rw, 0x0⟩,
   ⟨47, 32, .rw, 0x1⟩, ⟨31, 16, .rw, 0xC8⟩, ⟨15, 0, .rw, 0x0⟩]

/-- PCI_TAGAP (PCI page, offset 0x100) (R568). -/
def tagAp : List Fld :=
  [⟨63, 63, .rw, 0x0⟩, ⟨62, 62, .rw, 0x0⟩, ⟨61, 56, .rsv, 0x0⟩,
   ⟨55, 48, .rw, 0x0⟩, ⟨47, 16, .rsv, 0x0⟩, ⟨15, 0, .rw, 0x0⟩]

/-- DMA_CTL_q (PCI page, offset 0x400 + 0x10 × q) (R572). -/
def dmaCtl : List Fld :=
  [⟨63, 63, .rw, 0x0⟩, ⟨62, 62, .rov, 0x0⟩, ⟨61, 56, .rsv, 0x0⟩,
   ⟨55, 45, .rw, 0x0⟩, ⟨44, 44, .rsv, 0x0⟩, ⟨43, 40, .rw, 0x0⟩,
   ⟨39, 0, .rw, 0x0⟩]

/-- DMA_PTR_q (PCI page, offset 0x408 + 0x10 × q) (R573). -/
def dmaPtr : List Fld :=
  [⟨63, 32, .rw, 0x0⟩, ⟨31, 0, .rov, 0x0⟩]

/-- SEC_LCS (SEC page, offset 0x100) (R602). -/
def secLcs : List Fld :=
  [⟨63, 33, .rsv, 0x0⟩, ⟨32, 32, .rov, 0x0⟩, ⟨31, 23, .rsv, 0x0⟩,
   ⟨22, 16, .rov, 0x0⟩, ⟨15, 3, .rsv, 0x0⟩, ⟨2, 0, .rov, 0x0⟩]

/-- SEC_DBG_STATUS (SEC page, offset 0x108) (R608). -/
def secDbg : List Fld :=
  [⟨63, 63, .rov, 0x0⟩, ⟨62, 56, .rsv, 0x0⟩, ⟨55, 48, .rov, 0x0⟩,
   ⟨47, 40, .rov, 0x0⟩, ⟨39, 32, .rov, 0x0⟩, ⟨31, 16, .rsv, 0x0⟩,
   ⟨15, 0, .rov, 0x0⟩]

/-- SEC_BOOT_CTL (SEC page, offset 0x110) (R587). -/
def bootCtl : List Fld :=
  [⟨63, 63, .wo, 0x0⟩, ⟨62, 62, .rw, 0x0⟩, ⟨61, 60, .rsv, 0x0⟩,
   ⟨59, 56, .rov, 0x0⟩, ⟨55, 38, .rsv, 0x0⟩, ⟨37, 16, .rw, 0x0⟩,
   ⟨15, 0, .rw, 0x0⟩]

/-- SEC_EXTEND (SEC page, offset 0x118) (R592). -/
def secExtend : List Fld :=
  [⟨63, 63, .wo, 0x0⟩, ⟨62, 60, .rov, 0x0⟩, ⟨59, 59, .rov, 0x0⟩,
   ⟨58, 56, .rsv, 0x0⟩, ⟨55, 52, .rw, 0x0⟩, ⟨51, 6, .rw, 0x0⟩,
   ⟨5, 0, .rsv, 0x0⟩]

/-- SEC_MEAS_k_w (SEC page, offset 0x200 + 0x30 × k + 8 × w) (R591). -/
def whole : List Fld :=
  [⟨63, 0, .rov, 0x0⟩]

/-- PWR_MODE (PWR page, offset 0x100) (R621). -/
def pwrMode : List Fld :=
  [⟨63, 56, .wo, 0x0⟩, ⟨55, 34, .rsv, 0x0⟩, ⟨33, 33, .rov, 0x0⟩,
   ⟨32, 32, .rw1c, 0x0⟩, ⟨31, 12, .rsv, 0x0⟩, ⟨11, 8, .rov, 0x1⟩,
   ⟨7, 4, .rsv, 0x0⟩, ⟨3, 0, .rov, 0x2⟩]

/-- PWR_CAP (PWR page, offset 0x108) (R626). -/
def pwrCap : List Fld :=
  [⟨63, 48, .rsv, 0x0⟩, ⟨47, 32, .rov, 0x0⟩, ⟨31, 16, .rov, 0x0⟩,
   ⟨15, 0, .rw, 0x0⟩]

/-- PWR_DOM_REQ (PWR page, offset 0x110) (R617). -/
def domReq : List Fld :=
  [⟨63, 63, .wo, 0x0⟩, ⟨62, 58, .rsv, 0x0⟩, ⟨57, 56, .rw, 0x0⟩,
   ⟨55, 52, .rov, 0x0⟩, ⟨51, 51, .rov, 0x0⟩, ⟨50, 7, .rsv, 0x0⟩,
   ⟨6, 0, .rw, 0x0⟩]

/-- PWR_DOM_STATE_k (PWR page, offset 0x118 + 8 × k, k = 0–2) (R617). -/
def domState : List Fld :=
  [⟨63, 0, .rov, 0xAAAAAAAAAAAAAAAA⟩]

/-- PWR_FREQ_t (PWR page, offset 0x130 + 8 × t) (R626). -/
def pwrFreq : List Fld :=
  [⟨63, 37, .rsv, 0x0⟩, ⟨36, 32, .rov, 0x1⟩, ⟨31, 29, .rsv, 0x0⟩,
   ⟨28, 24, .rov, 0x10⟩, ⟨23, 21, .rsv, 0x0⟩, ⟨20, 16, .rov, 0x10⟩,
   ⟨15, 5, .rsv, 0x0⟩, ⟨4, 0, .rw, 0x18⟩]

/-- CLK_SSC (CLK page, offset 0x100) (R633). -/
def clkSsc : List Fld :=
  [⟨63, 18, .rsv, 0x0⟩, ⟨17, 17, .rw, 0x1⟩, ⟨16, 16, .rw, 0x1⟩,
   ⟨15, 12, .rsv, 0x0⟩, ⟨11, 8, .rw, 0x4⟩, ⟨7, 4, .rsv, 0x0⟩,
   ⟨3, 0, .rw, 0xA⟩]

/-- CLK_SLEW (CLK page, offset 0x108) (R634). -/
def clkSlew : List Fld :=
  [⟨63, 16, .rsv, 0x0⟩, ⟨15, 14, .rw, 0x2⟩, ⟨13, 12, .rw, 0x2⟩,
   ⟨11, 10, .rw, 0x2⟩, ⟨9, 8, .rw, 0x2⟩, ⟨7, 6, .rw, 0x2⟩,
   ⟨5, 4, .rw, 0x2⟩, ⟨3, 2, .rw, 0x2⟩, ⟨1, 0, .rw, 0x2⟩]

/-- CAL_QUERY (CAL page, offset 0x100) (R638). -/
def calQuery : List Fld :=
  [⟨63, 52, .rsv, 0x0⟩, ⟨51, 40, .rw, 0x0⟩, ⟨39, 39, .rov, 0x1⟩,
   ⟨38, 38, .rov, 0x0⟩, ⟨37, 32, .rsv, 0x0⟩, ⟨31, 0, .rov, 0x0⟩]

/-- NVM_WEAR (NVM page, offset 0x100) (R642). -/
def nvmWear : List Fld :=
  [⟨63, 56, .rsv, 0x0⟩, ⟨55, 48, .rov, 0x0⟩, ⟨47, 32, .rsv, 0x0⟩,
   ⟨31, 16, .rov, 0x0⟩, ⟨15, 0, .rov, 0x0⟩]

/-- CAN_STATUS (CAN page, offset 0x100) (R657). -/
def canStatus : List Fld :=
  [⟨63, 32, .rov, 0x0⟩, ⟨31, 11, .rsv, 0x0⟩, ⟨10, 8, .rov, 0x0⟩,
   ⟨7, 3, .rsv, 0x0⟩, ⟨2, 2, .rw1c, 0x0⟩, ⟨1, 1, .rov, 0x0⟩,
   ⟨0, 0, .rov, 0x0⟩]

/-- CAN_WDOG (CAN page, offset 0x108) (R658). -/
def canWdog : List Fld :=
  [⟨63, 63, .wo, 0x0⟩, ⟨62, 62, .rw1s, 0x0⟩, ⟨61, 32, .rsv, 0x0⟩,
   ⟨31, 0, .rw, 0x3E8⟩]

/-- CAN_SNAP_CMD (CAN page, offset 0x110) (R659). -/
def canCmd : List Fld :=
  [⟨63, 63, .wo, 0x0⟩, ⟨62, 60, .rw, 0x0⟩, ⟨59, 57, .rw, 0x0⟩,
   ⟨56, 56, .rov, 0x0⟩, ⟨55, 52, .rov, 0x0⟩, ⟨51, 6, .rw, 0x0⟩,
   ⟨5, 0, .rsv, 0x0⟩]

/-- CAN_SWLOG (CAN page, offset 0x118) (R659). -/
def canSwlog : List Fld :=
  [⟨63, 48, .wo, 0x0⟩, ⟨47, 0, .wo, 0x0⟩]

/-- CAN_SLOT_s (CAN page, offset 0x140 + 8 × s, s = 0–7) (R659). -/
def canSlot : List Fld :=
  [⟨63, 32, .rov, 0x0⟩, ⟨31, 24, .rov, 0x0⟩, ⟨23, 16, .rov, 0x0⟩,
   ⟨15, 2, .rsv, 0x0⟩, ⟨1, 1, .rov, 0x0⟩, ⟨0, 0, .rov, 0x0⟩]

/-- DBG_TRC_BUF (DBG page, offset 0x100) (R667). -/
def trcBuf : List Fld :=
  [⟨63, 58, .rsv, 0x0⟩, ⟨57, 52, .rw, 0x0⟩, ⟨51, 16, .rw, 0x0⟩,
   ⟨15, 0, .rsv, 0x0⟩]

/-- DBG_TRC_CTL (DBG page, offset 0x108) (R667). -/
def trcCtl : List Fld :=
  [⟨63, 63, .rw, 0x0⟩, ⟨62, 62, .rw, 0x0⟩, ⟨61, 61, .rw, 0x0⟩,
   ⟨60, 12, .rsv, 0x0⟩, ⟨11, 0, .rw, 0x0⟩]

/-- DBG_TRC_STATUS (DBG page, offset 0x110) (R667). -/
def trcStatus : List Fld :=
  [⟨63, 32, .rov, 0x0⟩, ⟨31, 0, .rov, 0x0⟩]

/-- HDF_ID (HDF_0, offset 0x100) (R683). -/
def hdfId : List Fld :=
  [⟨63, 48, .ro, 0x909⟩, ⟨47, 40, .ro, 0x42⟩, ⟨39, 32, .ro, 0x1⟩,
   ⟨31, 17, .rsv, 0x0⟩, ⟨16, 16, .ro, 0x0⟩, ⟨15, 14, .rsv, 0x0⟩,
   ⟨13, 12, .ro, 0x0⟩, ⟨11, 10, .rsv, 0x0⟩, ⟨9, 8, .ro, 0x0⟩,
   ⟨7, 6, .rsv, 0x0⟩, ⟨5, 0, .ro, 0x0⟩]

/-- COR_PMC_c_n (COR page, offset 0x100 + 0x20 × c + 8 × n) (R685). -/
def pmc : List Fld :=
  [⟨63, 63, .rw1c, 0x0⟩, ⟨62, 56, .rsv, 0x0⟩, ⟨55, 48, .rw, 0x0⟩,
   ⟨47, 0, .rw, 0x0⟩]

/-- THM_TEMP_j (THM page, offset 0x100 + 8 × j) (R686). -/
def thmTemp : List Fld :=
  [⟨63, 18, .rsv, 0x0⟩, ⟨17, 16, .rov, 0x0⟩, ⟨15, 0, .rov, 0x0⟩]

/-- PAGE_VER (offset 0x008) (R678). -/
def pageVer : List Fld :=
  [⟨63, 16, .rsv, 0x0⟩, ⟨15, 8, .ro, 0x1⟩, ⟨7, 0, .ro, 0x0⟩]

/-- PAGE_CAPS (offset 0x010) (R678). -/
def pageCaps : List Fld :=
  [⟨63, 0, .ro, 0x0⟩]

/-- PAGE_CTRL (offset 0x018) (R678). -/
def pageCtrl : List Fld :=
  [⟨63, 63, .rw, 0x0⟩, ⟨62, 62, .rw, 0x0⟩, ⟨61, 53, .rsv, 0x0⟩,
   ⟨52, 42, .rw, 0x0⟩, ⟨41, 11, .rsv, 0x0⟩, ⟨10, 0, .rw, 0x0⟩]

/-- PAGE_STATUS (offset 0x020) (R678). -/
def pageStatus : List Fld :=
  [⟨63, 2, .rsv, 0x0⟩, ⟨1, 0, .rov, 0x2⟩]

/-- ERR_FIRST (offset 0x040) (R678). -/
def errFirst : List Fld :=
  [⟨63, 63, .rw1c, 0x0⟩, ⟨62, 60, .rov, 0x0⟩, ⟨59, 48, .rsv, 0x0⟩,
   ⟨47, 32, .rov, 0x0⟩, ⟨31, 23, .rsv, 0x0⟩, ⟨22, 12, .rov, 0x0⟩,
   ⟨11, 0, .rov, 0x0⟩]

/-- ERR_COUNT (offset 0x048) (R678). -/
def errCount : List Fld :=
  [⟨63, 16, .rsv, 0x0⟩, ⟨15, 0, .rw1c, 0x0⟩]

/-- PAGE_LOCK (offset 0x050) (R678). -/
def pageLock : List Fld :=
  [⟨63, 1, .rsv, 0x0⟩, ⟨0, 0, .rw1s, 0x0⟩]

/-- The low byte of a vendor row (R45, R47). -/
def vendorBits : Nat → Nat
  | 0x01 | 0x02 => 0x60 | 0x06 => 0x44 | 0x07 => 0x42 | 0x08 | 0x0F | 0x12 => 0x80
  | 0x09 | 0x0A | 0x0B | 0x0C | 0x0D => 0x88 | 0x0E => 0xA8 | 0x11 => 0x90 | 0x14 => 0x8C
  | n => if n < 0x16 then 0x40 else 0

/-- TYP_ROW[n], vendor rows: every field RO (R47). -/
def vendorRow (n : Nat) : List Fld :=
  [⟨63, 42, .rsv, 0⟩, ⟨41, 32, .ro, if n < 0x16 then n else 0⟩, ⟨31, 8, .rsv, 0⟩, ⟨7, 0, .ro, vendorBits n⟩]

/-- The block-defined bits of IRQ_STATUS below bit 63 (R486, R509, R532, R534, R542, R545, R658, R718). -/
def irqBits (b : Blk) (i : Nat) : Nat :=
  match b with
  | .slu => if i = 8 then 0xFFFFFFFF else 0
  | .cge => if i = 64 then 1 else 0
  | .dft => if i = 4 then 0x7FFFFFFFFFFFF else 0
  | .can => 2
  | .nvm => 1
  | _ => 0

/-- The header registers (R678), and the fields of a block's own register at an offset of its page; none where the
page has no register there (R676). -/
def regFields (b : Blk) (i off : Nat) : Option (List Fld) :=
  let at_ := fun (base step n : Nat) => decide (base ≤ off) && decide (off < base + step * n) && decide ((off - base) % step = 0)
  if off = 0x000 then some [⟨63, 56, .rsv, 0⟩, ⟨55, 48, .ro, b.index.1⟩, ⟨47, 16, .rsv, 0⟩, ⟨15, 0, .ro, i⟩]
  else if off = 0x008 then some pageVer
  else if off = 0x010 then some pageCaps
  else if off = 0x018 then
    (if b = .pci then some [⟨63, 63, .rw, 0⟩, ⟨62, 62, .rw, 0⟩, ⟨61, 53, .rsv, 0⟩, ⟨52, 42, .ro, 0⟩, ⟨41, 11, .rsv, 0⟩,
      ⟨10, 0, .rw, 0⟩] else some pageCtrl)
  else if off = 0x020 then some pageStatus
  else if off = 0x028 then some [⟨63, 63, .rw1c, 0⟩, ⟨62, 0, .rw1c, 0⟩]
  else if off = 0x030 then some [⟨63, 63, .rw, 0⟩, ⟨62, 0, .rw, 0⟩]
  else if off = 0x038 then some [⟨63, 63, .wo, 0⟩, ⟨62, 0, .wo, 0⟩]
  else if off = 0x040 then some errFirst
  else if off = 0x048 then some errCount
  else if off = 0x050 then some pageLock
  else if off < 0x100 then some [⟨63, 0, .rsv, 0⟩]
  else match b with
  | .hdf => if off = 0x100 then some hdfId else none
  | .sec => if off = 0x100 then some secLcs else if off = 0x108 then some secDbg else if off = 0x110 then some bootCtl
            else if off = 0x118 then some secExtend else if at_ 0x200 8 96 then some whole else none
  | .pwr => if off = 0x100 then some pwrMode else if off = 0x108 then some pwrCap else if off = 0x110 then some domReq
            else if at_ 0x118 8 3 then some domState else if at_ 0x130 8 8 then some pwrFreq else none
  | .clk => if off = 0x100 then some clkSsc else if off = 0x108 then some clkSlew else none
  | .cal => if off = 0x100 then some calQuery else none
  | .nvm => if off = 0x100 then some nvmWear else none
  | .lmp => if off = 0x108 then some refuseRing else if off = 0x110 then some ringPtr else none
  | .tim => if off = 0x100 then some timStatus else if off = 0x108 then some timCtl
            else if off = 0x110 then some [⟨63, 48, .rsv, 0⟩, ⟨47, 0, .wo, 0⟩]
            else if off = 0x118 then some [⟨63, 0, .rov, 0⟩]
            else if off = 0x120 then some [⟨63, 32, .rsv, 0⟩, ⟨31, 0, .rov, 0⟩] else none
  | .pci => if off = 0x100 then some tagAp else if at_ 0x400 16 64 then some dmaCtl
            else if at_ 0x408 16 64 then some dmaPtr else none
  | .dbg => if off = 0x100 then some trcBuf else if off = 0x108 then some trcCtl else if off = 0x110 then some trcStatus
            else none
  | .can => if off = 0x100 then some canStatus else if off = 0x108 then some canWdog else if off = 0x110 then some canCmd
            else if off = 0x118 then some canSwlog else if at_ 0x140 8 8 then some canSlot else none
  | .typ => if at_ 0x200 8 32 then some (typRow (0x380 + (off - 0x200) / 8))
            else if at_ 0x100 8 32 then some (vendorRow ((off - 0x100) / 8)) else none
  | .thm => if at_ 0x100 8 (if i < 8 then 8 else 25) then some thmTemp else none
  | .mem => if off = 0x100 then some fcStart else if off = 0x108 then some fcLen else if off = 0x110 then some fcCtl
            else if off = 0x118 then some scrubCtl else if off = 0x120 then some scrubStatus else none
  | .dft => if i < 4 then (if off = 0x100 then some portStatus else none)
            else if off = 0x100 then some driftCfg else if off = 0x108 then some base16
            else if off = 0x110 then some peerCmd else if off = 0x118 then some rtoCfg
            else if off = 0x120 then some refuseRing else if off = 0x128 then some ringPtr
            else if at_ 0x140 0x18 16 then some gwinCtl else if at_ 0x148 0x18 16 then some asidReg
            else if at_ 0x150 0x18 16 then some vmidReg else if at_ 0x300 16 48 then some qRing
            else if at_ 0x308 16 48 then some ringPtr else none
  | .slu => if i < 8 then none else if off = 0x900 then some regionBase
            else if at_ 0x100 0x80 16 then some ctxCfg else if at_ 0x108 0x80 16 then some heapMap
            else if at_ 0x110 0x80 16 || at_ 0x118 0x80 16 then some base16 else if at_ 0x120 0x80 16 then some rootList
            else if at_ 0x128 0x80 16 then some flipAt else if at_ 0x130 0x80 16 then some sluCmd
            else if at_ 0x138 0x80 16 then some sluStatus else if at_ 0x140 0x80 16 then some jobReg
            else if at_ 0x148 0x80 16 then some rgnCmd else none
  | .cge => if i = 64 then (if at_ 0x100 8 16 then some grpCfg else if off = 0x200 then some railStatus else none)
            else if at_ 0x100 8 16 then some grpMembers else if off = 0x180 then some throttle else none
  | .clu => if at_ 0x100 8 8 then some coreCfg else if off = 0x140 then some wayLock
            else if off = 0x148 then some cluIpi else none
  | .cor => if at_ 0x100 8 32 then some pmc else none
  | .bld => if off = 0x100 then some bldSrc else if off = 0x108 then some bldXfer else if off = 0x110 then some bldOwner
            else if off = 0x118 then some bldStatus else if at_ 0x120 8 6 then some bldDigest else none
  | .cad | .til | .fab | .stp => none

end Sys2Proof.Machine
end

