-- ==== Sys2Proof/Machine/Bits.lean ====
section
/-! DEFINITION. Bit fields, sign extension, serial comparison, byte order, sparse tables, and the plain accessors of the
chip. -/
namespace Sys2Proof.Machine

/-- Bits [hi:lo] of a datum as a number (R9). -/
def fld (d : Datum) (hi lo : Nat) : Nat := (d.toNat >>> lo) % 2 ^ (hi - lo + 1)
/-- A datum with bits [hi:lo] set to a number. -/
def setFld (d : Datum) (hi lo v : Nat) : Datum :=
  BitVec.ofNat 64 (d.toNat - fld d hi lo * 2 ^ lo + (v % 2 ^ (hi - lo + 1)) * 2 ^ lo)
/-- One bit of a datum. -/
def bit (d : Datum) (i : Nat) : Bool := d.toNat.testBit i
/-- A number as a datum. -/
abbrev dat (n : Nat) : Datum := BitVec.ofNat 64 n
/-- A Boolean as a number. -/
def b2n (b : Bool) : Nat := if b then 1 else 0

/-- Datum bits [63:55] all equal bit 54 (R61, R317). -/
def canon (d : Datum) : Bool := decide (d = (d.extractLsb' 0 55).signExtend 64)
/-- Local pointer form (R61). -/
def localForm (d : Datum) : Bool := canon d && decide (d.toNat % 8 = 0)
/-- Code pointer form (R62). -/
def codeForm (d : Datum) : Bool := canon d && decide (d.toNat % 4 = 0)
/-- A program counter is a code address in the form of R62 (R136): the bits of a datum that such an address keeps
(DEDUCED, log 17). -/
def pcForm (d : Datum) : Datum := (((d >>> 2) <<< 2).extractLsb' 0 55).signExtend 64

/-- a is at or past b under n-bit serial comparison (R557). -/
def reached (now target : Datum) : Bool := decide ((now - target).toNat < 2 ^ 63)

/-- The k bytes of a number, lowest first (R10). -/
def bytesOf (k n : Nat) : List Byte := (List.range k).map (fun i => BitVec.ofNat 8 (n >>> (8 * i)))
/-- The number whose bytes, lowest first, are given (R10). -/
def ofBytes : List Byte → Nat
  | [] => 0
  | b :: t => b.toNat + 256 * ofBytes t
/-- The number whose bytes, highest first, are given (R11, R604). -/
def ofBytesBE (l : List Byte) : Nat := ofBytes l.reverse

/-- The value of a sparse table at a key, or the default. -/
def sget {α : Type} (m : Sparse α) (k : Nat) (d : α) : α := (m.lookup k).getD d
/-- Insert in key order. -/
def sput {α : Type} (k : Nat) (v : α) : Sparse α → Sparse α
  | [] => [(k, v)]
  | (j, w) :: t => if k < j then (k, v) :: (j, w) :: t else if k = j then (k, v) :: t else (j, w) :: sput k v t
/-- Remove a key. -/
def sdel {α : Type} (m : Sparse α) (k : Nat) : Sparse α := m.filter (fun e => decide (e.1 ≠ k))
/-- Write a sparse table, keeping no entry equal to the default. -/
def sset {α : Type} [DecidableEq α] (m : Sparse α) (k : Nat) (v d : α) : Sparse α :=
  if v = d then sdel m k else sput k v m

/-- A hart of the module. -/
def Chip.hart (c : Chip) (h : Hart) : HartSt := sget c.harts h.toNat HartSt.reset
/-- The module with a hart replaced. -/
def Chip.setHart (c : Chip) (h : Hart) (x : HartSt) : Chip := { c with harts := sset c.harts h.toNat x HartSt.reset }
/-- The module with a hart changed. -/
def Chip.modHart (c : Chip) (h : Hart) (f : HartSt → HartSt) : Chip := c.setHart h (f (c.hart h))

/-- The counter of free values, advanced (DESIGN CHOICE, log 1). -/
def Chip.tick (c : Chip) : Chip := { c with fresh := c.fresh + 1 }
/-- Something put on a link (DESIGN CHOICE, log 10). -/
def Chip.emit (c : Chip) (o : Out) : Chip := { c with out := c.out ++ [o] }

/-- The core of a hart, hart[10:2]; its cluster; its tile (R19). -/
def coreOf (h : Hart) : BitVec 9 := h.extractLsb' 2 9
def clusterOf (h : Hart) : BitVec 6 := h.extractLsb' 5 6
def tileOf (h : Hart) : Nat := (h.extractLsb' 8 3).toNat
/-- The domain of a cluster: 10t + c (R613). -/
def clusterDom (k : Nat) : Nat := 10 * (k / 8) + k % 8

/-- The state of a switched domain; 96 stands for the I/O-die pages, served in every mode but OFF and STANDBY (R682). -/
def Chip.dom (c : Chip) (d : Nat) : Dom :=
  if d < 96 then sget c.power.doms d .on
  else if c.mode = .off || c.mode = .standby then .off else .on

/-- The state of a hart's cluster. -/
def Chip.hartDom (c : Chip) (h : Hart) : Dom := c.dom (clusterDom (clusterOf h).toNat)

/-- Mode codes (R24). -/
def Mode.code : Mode → Nat
  | .off => 0 | .standby => 1 | .boot => 2 | .provision => 3 | .run => 4 | .runCapped => 5 | .runPartial => 6
  | .quiesced => 7 | .degraded => 8 | .maintenance => 9 | .survival => 10 | .factoryTest => 11
/-- Lifecycle codes (R597). -/
def Lifecycle.code : Lifecycle → Nat
  | .manufacture => 0 | .provisioned => 1 | .deployed => 2 | .rma => 3 | .scrapped => 4
/-- Domain codes (R617). -/
def Dom.code : Dom → Nat
  | .off => 0 | .retain => 1 | .on => 2 | .trans => 3

/-- Sequencers, contexts of each, and store words of a unit engine, 0 Sluice, 1 Stope, 2 Drift (R237). -/
def engineCount (e : BitVec 2) : Nat := if e = 0 then 8 else if e = 1 then 72 else if e = 2 then 4 else 0
def unitSize (e : Nat) : Nat := if e = 0 then 8192 else if e = 1 then 2048 else if e = 2 then 16384 else 0
/-- A sequencer of the module: a hart, or a context of one of its unit engines (R237). -/
def sequencerOk : Sequencer → Bool
  | .core _ => true
  | .sluice i x => decide (i < 8) && decide (x < 32)
  | .stope i x => decide (i < 72) && decide (x < 16)
  | .drift i x => decide (i < 4) && decide (x < 64)
/-- A context of an engine's sequencer. -/
def inEngine (u : Sequencer) (e : BitVec 2) (i : Nat) : Bool :=
  match u with
  | .core _ => false
  | .sluice j _ => decide (e = 0) && decide (j = i)
  | .stope j _ => decide (e = 1) && decide (j = i)
  | .drift j _ => decide (e = 2) && decide (j = i)

/-- RUN, RUN_CAPPED or RUN_PARTIAL. -/
def Mode.running (m : Mode) : Bool := m = .run || m = .runCapped || m = .runPartial

end Sys2Proof.Machine
end

