-- ==== Sys2Proof/Machine/Cache.lean ====
section
/-! DEFINITION. The caches, the directories and the Caddies (R352–R360, R388–R391, R402–R407): which lines they hold, where,
and what an access, a recall, a write and a maintenance operation do to that. The words stay in `Chip.mem`. -/
namespace Sys2Proof.Machine

/-- The controller of a granule (R395). -/
def ctlOfGranule (g : Nat) : Nat :=
  let q := g / 9
  (g % 9 + (q + q / 2 ^ 9 + q / 2 ^ 18) % 9) % 9
/-- The slot of a granule (R395). -/
def slotOfGranule (g : Nat) : Nat := g / 9

/-- Sets and ways of a cache (R352). -/
def cacheSets : CacheKind → Nat
  | .l1i | .l1d => 128 | .l2 => 4096 | .l3 => 16384
def cacheWays : CacheKind → Nat
  | .l1i | .l1d => 4 | .l2 | .l3 => 16
/-- Sets and ways of a Caddy, and the entries of a directory (R352, R407). -/
def caddySets : Nat := 4096
def caddyWays : Nat := 16
def dirEntries : Nat := 65536

/-- What cache activity depends on beside the caches: the home tile of a line (R357), a cluster's L2_WAYLOCK (R388), and the
meta symbol of a line as its words stand (R402). -/
structure CacheEnv where
  home : Nat → Option Nat
  wayLock : Nat → Datum
  symbol : Nat → BitVec 16

/-- UNIF and PANY of a line (R402). -/
def CacheEnv.unif (e : CacheEnv) (l : Nat) : Bool := (e.symbol l).getLsbD 15
def CacheEnv.pany (e : CacheEnv) (l : Nat) : Bool := (e.symbol l).getLsbD 6
/-- FILL_EN, and LOCK of a way, of a cluster's L2 (R388). -/
def CacheEnv.fillEn (e : CacheEnv) (k : Nat) : Bool := bit (e.wayLock k) 20
def CacheEnv.locked (e : CacheEnv) (k way : Nat) : Bool := decide (way < 8) && bit (e.wayLock k) way

/-- A slot lies in a cache instance. -/
def Slot.inside (s : Slot) (k : CacheKind) (u : Nat) : Bool := decide (s.kind = k) && decide (s.unit = u)
/-- A slot's set (R352). -/
def Slot.set (s : Slot) : Nat := s.line % cacheSets s.kind
/-- The slot that holds a line in a cache instance, or stays reserved for it (R390). -/
def Caches.slotOf (x : Caches) (k : CacheKind) (u l : Nat) : Option Slot :=
  x.slots.find? (fun s => s.inside k u && decide (s.line = l))
/-- The copy of a line in a cache instance. -/
def Caches.copyIn (x : Caches) (k : CacheKind) (u l : Nat) : Option Slot := (x.slotOf k u l).filter (fun s => s.held)
/-- The slot at a set and way of a cache instance. -/
def Caches.slotAt (x : Caches) (k : CacheKind) (u set way : Nat) : Option Slot :=
  x.slots.find? (fun s => s.inside k u && decide (s.set = set) && decide (s.way = way))
/-- The modified copy of a line. -/
def Caches.modified (x : Caches) (l : Nat) : Option Dirty := x.dirty.find? (fun d => decide (d.line = l))
/-- Take a slot out. -/
def Caches.remove (x : Caches) (s : Slot) : Caches := { x with slots := x.slots.filter (fun t => decide (t ≠ s)) }

/-- The cluster a slot belongs to; none for an L3 slot. -/
def Slot.cluster (s : Slot) : Option Nat :=
  match s.kind with
  | .l1i | .l1d => some (s.unit / 8)
  | .l2 => some s.unit
  | .l3 => none
/-- A cluster holds a line. -/
def Caches.clusterHolds (x : Caches) (k l : Nat) : Bool :=
  x.slots.any (fun s => s.held && decide (s.line = l) && decide (s.cluster = some k))
/-- The directory's record of a line follows the copies the clusters hold (R357): none where no cluster holds it. -/
def Caches.record (x : Caches) (l : Nat) : Caches :=
  let ks := (List.range 64).filter (fun k => x.clusterHolds k l)
  let st : LineState := if x.dirty.any (fun d => decide (d.line = l) && decide (d.at_ ≠ .l3)) then .modified
    else if ks.length = 1 then .exclusive else .shared
  let rest := x.dirs.filter (fun d => decide (d.line ≠ l))
  { x with dirs := if ks.isEmpty then rest else rest ++ [⟨l, BitVec.ofNat 64 ((ks.map (2 ^ ·)).sum), st⟩] }

/-- A tag line enters its controller's Caddy, or is rewritten there (R407): the way is free, and what it displaces is written
back or dropped. -/
def Caches.tagLine (x : Caches) (g n : Nat) (dirty : Bool) : Caches :=
  if x.caddy.any (fun e => decide (e.granule = g)) then
    { x with caddy := x.caddy.map (fun e => if e.granule = g then { e with dirty := e.dirty || dirty } else e) }
  else
    { x with caddy := x.caddy.filter (fun e => !(decide (ctlOfGranule e.granule = ctlOfGranule g)
        && decide (slotOfGranule e.granule % caddySets = slotOfGranule g % caddySets)
        && decide (e.way = n % caddyWays))) ++ [⟨g, n % caddyWays, dirty⟩] }

/-- A modified copy is written to HBM (R360, R379): with its tags where the line is mixed (R402, R407). -/
def Caches.writeBack (e : CacheEnv) (x : Caches) (l n : Nat) : Caches :=
  match x.modified l with
  | none => x
  | some _ =>
    let x := { x with dirty := x.dirty.filter (fun d => decide (d.line ≠ l)) }
    if e.unif l then x else x.tagLine (l / 8) n true

/-- Put a line in a way of a cache instance: the cache after it, and the slot it displaces. -/
def Caches.place (x : Caches) (s : Slot) : Caches × Option Slot :=
  let old := x.slots.find? (fun t => t.inside s.kind s.unit && decide (t.set = s.set) && decide (t.line ≠ s.line)
    && decide (t.way = s.way))
  ({ x with slots := x.slots.filter (fun t => !(t.inside s.kind s.unit && decide (t.line = s.line)) && decide (some t ≠ old))
      ++ [s] }, old)

/-- The modified copy of a line moves to another cache. -/
def Caches.moveDirty (x : Caches) (l : Nat) (k : CacheKind) : Caches :=
  { x with dirty := x.dirty.map (fun d => if d.line = l then { d with at_ := k } else d) }
/-- The line's modified copy lies in a cache of kind k. -/
def Caches.dirtyAt (x : Caches) (l : Nat) (k : CacheKind) : Bool := x.dirty.any (fun d => decide (d.line = l) && decide (d.at_ = k))

/-- A line enters its home's L3 (R352); with no L3 on it goes to HBM. -/
def Caches.putL3 (e : CacheEnv) (x : Caches) (l n : Nat) (tags : Bool) : Caches :=
  match e.home l with
  | none => x.writeBack e l n
  | some t =>
    let (x, old) := (x.moveDirty l .l3).place ⟨.l3, t, n % 16, l, true, tags⟩
    match old with
    | none => x
    | some o => if x.dirtyAt o.line .l3 then x.writeBack e o.line (n / 16) else x

/-- A line leaves an L2 by replacement: into the L3 (DESIGN CHOICE, log 33). -/
def Caches.leaveL2 (e : CacheEnv) (x : Caches) (o : Slot) (n : Nat) : Caches :=
  if !o.held then x
  else if x.dirtyAt o.line .l1d then x.record o.line
  else (x.putL3 e o.line n o.tags).record o.line

/-- The way an L2 allocation takes (R388, R390): the slot reserved for the line, FILL_WAY under FILL_EN, or a free choice
among the ways that are not locked (DESIGN CHOICE, log 33). -/
def Caches.wayL2 (e : CacheEnv) (x : Caches) (k l n : Nat) : Nat :=
  match x.slotOf .l2 k l with
  | some s => s.way
  | none =>
    if e.fillEn k then fld (e.wayLock k) 18 16
    else
      let ways := (List.range 16).filter (fun w => !e.locked k w)
      (ways[n % ways.length]?).getD 15

/-- A line enters a cluster's L2. -/
def Caches.putL2 (e : CacheEnv) (x : Caches) (k l n : Nat) (tags : Bool) : Caches :=
  let (x, old) := x.place ⟨.l2, k, x.wayL2 e k l n, l, true, tags⟩
  match old with
  | none => x
  | some o => x.leaveL2 e o (n / 16)

/-- A line enters a core's L1; what it displaces, where modified, goes to the cluster's L2. -/
def Caches.putL1 (e : CacheEnv) (x : Caches) (kind : CacheKind) (core l n : Nat) (tags : Bool) : Caches :=
  let (x, old) := x.place ⟨kind, core, n % 4, l, true, tags⟩
  match old with
  | none => x
  | some o =>
    if kind = .l1d && x.dirty.any (fun d => decide (d.line = o.line) && decide (d.at_ = .l1d) && decide (d.core.toNat = core)) then
      ((x.moveDirty o.line .l2).putL2 e (core / 8) o.line (n / 4) o.tags).record o.line
    else x.record o.line

/-- Every cached copy of a line is invalidated, a modified one written back first (R358, R360); a locked L2 slot stays reserved
for its line (R390). `sel` picks the copies. -/
def Caches.invalidate (e : CacheEnv) (x : Caches) (l n : Nat) (sel : Slot → Bool := fun _ => true) : Caches :=
  let x := x.writeBack e l n
  Caches.record { x with slots := x.slots.filterMap (fun s =>
      if s.line ≠ l || !sel s then some s
      else if s.kind = .l2 && e.locked s.unit s.way then some { s with held := false } else none) } l

/-- A directory holds no more entries than it has (R352, R358): one of its tile's, freely, is evicted. -/
def Caches.dirRoom (e : CacheEnv) (x : Caches) (l n : Nat) : Caches :=
  let mine := x.dirs.filter (fun d => decide (e.home d.line = e.home l) && decide (d.line ≠ l))
  if x.dirs.length ≤ dirEntries || mine.length < dirEntries then x
  else match mine[n % mine.length]? with
    | none => x
    | some d => x.invalidate e d.line (n / dirEntries)

/-- What a line's modified copy in another core becomes before a core uses the line (R357): in its own cluster it goes to the
L2, from another cluster to the L3. -/
def Caches.downgrade (e : CacheEnv) (x : Caches) (core l n : Nat) : Caches :=
  match x.modified l with
  | none => x
  | some d =>
    let tags := (x.slots.find? (fun s => decide (s.line = l) && s.held)).any (fun s => s.tags)
    if d.at_ = .l3 then x
    else if d.core.toNat / 8 = core / 8 then
      if d.at_ = .l2 || d.core.toNat = core then x else (x.moveDirty l .l2).putL2 e (core / 8) l n tags
    else (x.moveDirty l .l3).putL3 e l n tags

/-- A core uses a line through one of its L1s (R352, R406): nothing on a hit; on a miss the line comes from its cluster's L2,
from the L3 or from HBM, and enters the L1 and, where `l2`, the L2. `tags` asks for its tags; a datum-only copy fetches
them first. `n` is the free choice of ways (DESIGN CHOICE, log 33). -/
def Caches.use (e : CacheEnv) (x : Caches) (kind : CacheKind) (core l n : Nat) (tags l2 : Bool) : Caches :=
  let k := core / 8
  match x.copyIn kind core l with
  | some s =>
    if !tags || s.tags then x
    else
      let x : Caches := if e.unif l then x else x.tagLine (l / 8) n false
      { x with slots := x.slots.map (fun t => if t.line = l then { t with tags := true } else t) }
  | none =>
    let x : Caches := x.downgrade e core l n
    let from_ : Option Slot := match x.copyIn .l2 k l with
      | some s => some s
      | none => x.slots.find? (fun (s : Slot) => decide (s.kind = .l3) && decide (s.line = l))
    let has := from_.any (fun s => s.tags)
    let ask := tags || e.pany l
    let x := if ask && !e.unif l && !has then x.tagLine (l / 8) n false else x
    let t := ask || e.unif l || has
    let x := if l2 && !(x.copyIn .l2 k l).any (fun s => !t || s.tags) then x.putL2 e k l (n / 2 ^ 8) t else x
    ((x.putL1 e kind core l (n / 2 ^ 16) t).record l).dirRoom e l (n / 2 ^ 32)

/-- The line after one, where it lies in the same 64 KiB page: what a miss prefetches (R355). -/
def nextLine (l : Nat) : Option Nat := if l % 1024 = 1023 then none else some (l + 1)

/-- A core loads or fetches through an L1, with the prefetch of R355 on a data miss where `pf` (R389: none into the L2 under
FILL_EN). -/
def Caches.read (e : CacheEnv) (x : Caches) (kind : CacheKind) (core l n : Nat) (tags pf : Bool) : Caches :=
  let miss := (x.copyIn kind core l).isNone
  let x := x.use e kind core l n tags true
  match nextLine l with
  | some l' => if kind = .l1d && pf && miss then x.use e .l1d core l' (n / 2 ^ 64) tags (!e.fillEn (core / 8)) else x
  | none => x

/-- A core's store is performed: its L1 holds the line modified, its cluster alone holds it, and the L2 copy, if any, is
older (R357). `old` is what HBM holds. -/
def Caches.own (e : CacheEnv) (x : Caches) (core : BitVec 9) (l n : Nat) (tags : Bool) (old : List Host.Cell) : Caches :=
  let x := x.use e .l1d core.toNat l n tags true
  let old := ((x.modified l).map (fun d => d.old)).getD old
  let others := fun (s : Slot) => !s.inside .l1d core.toNat && !s.inside .l2 (core.toNat / 8)
  let x : Caches := { x with
    dirty := x.dirty.filter (fun d => decide (d.line ≠ l)) ++ [⟨l, core, .l1d, old⟩]
    slots := x.slots.filterMap (fun s =>
      if s.line ≠ l || !others s then some s
      else if s.kind = .l2 && e.locked s.unit s.way then some { s with held := false } else none) }
  x.record l

/-- A maintenance operation by address or range on one line, in every cache (R379, R391): op 0 clean, 1 invalidate, 2 clean
and invalidate; `keep` is a range operation with INCLUDE_LOCKED = 0, which keeps locked L2 lines. -/
def Caches.maintain (e : CacheEnv) (x : Caches) (l n op : Nat) (keep : Bool) : Caches :=
  let kept := fun (s : Slot) => keep && decide (s.kind = .l2) && e.locked s.unit s.way
  let stays := op = 1 && keep && (match x.modified l with
    | some d => decide (d.at_ ≠ .l3) && x.slots.any (fun s => decide (s.line = l) && kept s && s.held && decide (s.unit = d.core.toNat / 8))
    | none => false)
  let y : Caches := if op = 1 then (if stays then x.moveDirty l .l2 else { x with dirty := x.dirty.filter (fun d => decide (d.line ≠ l)) })
    else x.writeBack e l n
  if op = 0 then y.record l
  else Caches.record { y with slots := y.slots.filter (fun s => decide (s.line ≠ l) || kept s) } l

/-- A maintenance operation on one slot (R379, R391). The line's modified data lies in this slot where its level holds the
modified copy. -/
def Caches.maintainSlot (e : CacheEnv) (x : Caches) (s : Slot) (n op : Nat) : Caches :=
  let mine := match x.modified s.line with
    | some d => decide (d.at_ = s.kind) && (match s.kind with
        | .l1d => decide (d.core.toNat = s.unit)
        | .l2 => decide (d.core.toNat / 8 = s.unit)
        | _ => true)
    | none => false
  let y := if !mine then x
    else if op = 1 then { x with dirty := x.dirty.filter (fun d => decide (d.line ≠ s.line)) } else x.writeBack e s.line n
  if op = 0 then y.record s.line else (y.remove s).record s.line

/-- The modified lines of a cluster, written back (R393). -/
def Caches.cleanCluster (e : CacheEnv) (x : Caches) (k n : Nat) : Caches :=
  (x.dirty.filter (fun d => decide (d.core.toNat / 8 = k) && decide (d.at_ ≠ .l3))).foldl
    (fun (x : Caches) d => (x.writeBack e d.line n).record d.line) x
/-- The slots that pass a test are emptied; no modified copy lies in them. -/
def Caches.empty (x : Caches) (sel : Slot → Bool) : Caches :=
  let gone := (x.slots.filter sel).map (fun s => s.line)
  gone.eraseDups.foldl Caches.record { x with slots := x.slots.filter (fun s => !sel s) }

end Sys2Proof.Machine
end

