-- ==== Sys2Proof/Machine/Pages.lean ====
section
/-! DEFINITION. Page registers as held: values, fields, errors (R679), interrupts (R681), MSI-X messages (R577), and the
pins the module drives (R699). -/
namespace Sys2Proof.Machine

/-- The value a register's fields give it at reset (R12, R14) (DESIGN CHOICE, log 3). -/
def resetOf (fs : List Fld) : Datum := fs.foldl (fun d f => setFld d f.hi f.lo f.reset) 0

/-- The reset value of the register at a BAR0 offset. -/
def pageReset (o : Nat) : Datum :=
  match pageAt o with
  | some (b, i) => match regFields b i (o % 0x1000) with
    | some fs => resetOf fs
    | none => 0
  | none => 0

/-- A register as held. -/
def Chip.reg (c : Chip) (o : Nat) : Datum := sget c.pages o (pageReset o)
/-- The module with a register set. -/
def Chip.setReg (c : Chip) (o : Nat) (v : Datum) : Chip := { c with pages := sset c.pages o v (pageReset o) }
/-- A field of a register as held. -/
def Chip.rf (c : Chip) (o hi lo : Nat) : Nat := fld (c.reg o) hi lo
/-- The module with a field of a register set. -/
def Chip.setRf (c : Chip) (o hi lo v : Nat) : Chip := c.setReg o (setFld (c.reg o) hi lo v)

/-- The source code of ERR_FIRST (R678). -/
def srcCode : Requester → Nat
  | .thread _ => 0 | .host => 1 | .headframe => 2 | .hardware => 3
/-- The hart of a thread source. -/
def hartNo : Requester → Nat
  | .thread h => h.toNat | _ => 0

/-- Set a block bit of IRQ_STATUS as a hardware setting does (R678). -/
def Chip.irq (c : Chip) (page bitNo : Nat) : Chip :=
  c.setReg (page + 0x28) (c.reg (page + 0x28) ||| dat (2 ^ bitNo))

/-- Record an error in a page (R679): COUNT, IRQ_STATUS.ERR, and ERR_FIRST where it is not valid. -/
def Chip.err (c : Chip) (page : Nat) (who : Requester) (code off : Nat) : Chip :=
  let n := c.rf (page + 0x48) 15 0
  let c := c.setRf (page + 0x48) 15 0 (min (n + 1) 0xFFFF)
  let c := c.irq page 63
  if bit (c.reg (page + 0x40)) 63 then c
  else c.setReg (page + 0x40)
    (dat (2 ^ 63 + srcCode who * 2 ^ 60 + code * 2 ^ 32 + hartNo who * 2 ^ 12 + off % 0x1000))

/-- Trigger an MSI-X vector (R577): sent where it is neither masked nor pending and the link carries it, else pending
(PRESUMED, log 8). -/
def Chip.msix (c : Chip) (vec : Nat) : Chip :=
  let masked := bit (sget c.pcie.msix vec (0, dat (2 ^ 32))).2 32
  if masked || c.pcie.pba.contains vec || !(c.pcie.released && c.pcie.linkUp) then
    { c with pcie := { c.pcie with pba := if c.pcie.pba.contains vec then c.pcie.pba else c.pcie.pba ++ [vec] } }
  else c.emit (.msix vec)

/-- The page asserts its interrupt: IRQ_STATUS AND IRQ_ENABLE is non-zero (R681). -/
def Chip.asserts (c : Chip) (page : Nat) : Bool := decide (c.reg (page + 0x28) &&& c.reg (page + 0x30) ≠ 0)

/-- The pages that may assert: those with a register of IRQ_ENABLE set. -/
def Chip.enabledPages (c : Chip) : List Nat :=
  (c.pages.filter (fun e => decide (e.1 % 0x1000 = 0x30))).map (fun e => e.1 - 0x30)

/-- Bring the asserted pages up to date: each change from not asserted to asserted triggers its vector where HOST_EN is
set; the PCI page triggers vector 0 (R681, R577). -/
def Chip.settleIrq (c : Chip) : Chip :=
  let now := c.enabledPages.filter c.asserts
  let new := now.filter (fun p => !c.asserted.contains p)
  new.foldl (fun c p =>
      if bit (c.reg (p + 0x18)) 63 then c.msix (if p = Blk.pci.base 0 then 0 else c.rf (p + 0x18) 52 42) else c)
    { c with asserted := now }

/-- The throttle threshold of a sensor in degrees (R627); SURVIVAL and trip lie 10 and 20 above. -/
def throttleAt (k : Nat) : Int := if k < 71 then 95 else 85
/-- The zone of a temperature in sixteenths of a degree: 0 below throttle, 1 throttle, 2 SURVIVAL, 3 trip (R686). -/
def zoneOf (k : Nat) (t : BitVec 16) : Nat :=
  let th := throttleAt k * 16
  if t.toInt ≥ th + 320 then 3 else if t.toInt ≥ th + 160 then 2 else if t.toInt ≥ th then 1 else 0
/-- The temperature of a sensor (R686). -/
def Chip.temp (c : Chip) (k : Nat) : BitVec 16 := sget c.power.temps k 0

/-- The power limit in force, in watts: least of 1,200, 25 A × VIN48, and HOST_CAP where it is not 0 (R22, R626). -/
def Chip.limitW (c : Chip) : Nat :=
  let supply := min 1200 (25 * c.power.vinMv / 1000)
  let cap := c.rf (Blk.pwr.base 0 + 0x108) 15 0
  if cap = 0 then supply else min supply cap

/-- VIN48 is within 40–60 V (R630, R691). -/
def Chip.vinOk (c : Chip) : Bool := decide (40000 ≤ c.power.vinMv) && decide (c.power.vinMv ≤ 60000)

/-- Drive PWR_GOOD, FAULT_N and ALERT_N (R699); in OFF they are not driven (R695). -/
def Chip.settlePins (c : Chip) : Chip :=
  let hot := c.power.temps.any (fun e => decide (zoneOf e.1 e.2 ≥ 1))
  let on := decide (c.mode ≠ .off)
  { c with pins := { c.pins with
      pwrGood := on && c.vinOk && c.power.vinStable
      faultN := !(on && (decide (c.mode = .degraded) || (decide (c.mode = .boot) && c.hdf.halted.isSome) || c.mcSeen))
      alertN := !(on && (hot || decide (c.power.inputW > c.limitW))) } }

/-- What every command ends in (DESIGN CHOICE, log 15). -/
def Chip.settle (c : Chip) : Chip := c.settleIrq.settlePins

/-- INT_PEND.EXT or .SLUICE held at a hart (R681): pages routed to it that assert; SLU_8 holds SLUICE. -/
def Chip.heldIrq (c : Chip) (h : Hart) (sluice : Bool) : Bool :=
  c.enabledPages.any (fun p => c.asserts p && bit (c.reg (p + 0x18)) 62 && decide (c.rf (p + 0x18) 10 0 = h.toNat)
    && (decide (p = Blk.slu.base 8) == sluice))

end Sys2Proof.Machine
end

