-- ==== Sys2Proof/Machine/Canary.lean ====
section
/-! DEFINITION. The Canary (R643–R657): entries, freezes and commits; and machine checks (R36, R40), which freeze it. -/
namespace Sys2Proof.Machine

/-- TIM_STATUS.LOCKED (R550). -/
def Chip.locked (c : Chip) : Bool := bit (c.reg (Blk.tim.base 0 + 0x100)) 0
/-- Time counter bits [79:16], as TIME and the compares read them (R549, R557). -/
def Chip.now (c : Chip) : Datum := c.time.counter.extractLsb' 16 64

/-- The ring an event of a source goes to (R643): its tile's, or the I/O die's (8), also while the tile's L3 domain is
not ON. -/
def Chip.ringOf (c : Chip) (skind sinst : Nat) : Nat :=
  let t := if skind = 0 then sinst / 256 else if skind = 1 then sinst / 64 else if skind = 2 then sinst / 8
           else if skind = 3 then sinst else if skind = 4 then (if sinst < 8 then sinst else 8) else 8
  if t < 8 && decide (c.dom (10 * t + 8) = .on) then t else 8

/-- Append an entry to a ring; a full ring overwrites its oldest entry (R643). -/
def pushRing (cap : Nat) (r : List Entry) (e : Entry) : List Entry :=
  let l := r ++ [e]
  if l.length > cap then l.drop (l.length - cap) else l

/-- Write a Canary entry in a ring (R645, R646), or count it as lost while the rings are frozen (R651). -/
def Chip.logIn (c : Chip) (r skind sinst event : Nat) (p0 p1 : Datum) : Chip :=
  let k := c.canary
  if k.frozen then { c with canary := { k with lost := sset k.lost r (sget k.lost r 0 + 1) 0 } }
  else
    let seq := sget k.seqs r 0
    let e : Entry := ⟨dat (skind * 2 ^ 60 + sinst % 4096 * 2 ^ 48 + (c.time.counter.extractLsb' 16 48).toNat),
                      dat (event * 2 ^ 48 + b2n (!c.locked) * 2 ^ 40 + seq.toNat), p0, p1⟩
    { c with canary := { k with
        rings := sset k.rings r (pushRing (if r < 8 then 4096 else 8192) (sget k.rings r []) e) []
        seqs := sset k.seqs r (seq + 1) 0 } }
/-- Write a Canary entry in its source's ring (R643). -/
def Chip.log (c : Chip) (skind sinst event : Nat) (p0 p1 : Datum) : Chip :=
  c.logIn (c.ringOf skind sinst) skind sinst event p0 p1

/-- The rings as a snapshot holds them: the I/O die's, then those of tiles 0 to 7 (R657). -/
def Chip.ringImage (c : Chip) : List (List Entry) :=
  sget c.canary.rings 8 [] :: (List.range 8).map (fun t => sget c.canary.rings t [])

/-- Source and EVENT of the triggering entry, as descriptor word 3 holds them (R657). -/
def trigWord (skind sinst event : Nat) : Datum := dat (skind * 2 ^ 60 + sinst % 4096 * 2 ^ 48 + event)

/-- Freeze every ring and stage a snapshot (R649); during a freeze in progress a trigger is only late (R652). -/
def Chip.freeze (c : Chip) (trigBit : Nat) (src : Datum) : Chip :=
  match c.canary.staging with
  | some s => { c with canary := { c.canary with staging := some { s with late := s.late ||| BitVec.ofNat 8 (2 ^ trigBit) } } }
  | none =>
    if c.canary.frozen then c
    else
      let c := c.log 10 0 0x7001 (dat trigBit) src
      let snap : Snapshot :=
        { commit := c.canary.commits, trig := BitVec.ofNat 8 (2 ^ trigBit), late := 0,
          lifecycle := BitVec.ofNat 8 c.hdf.lifecycle.code, valid := true, prot := false, time := c.time.counter,
          locked := c.locked, source := src, lost := [], rings := c.ringImage }
      { c with canary := { c.canary with frozen := true, staging := some snap, staged := snap.rings, lost := [] } }

/-- A hart that runs: released, and neither halted nor stopped (R36, R309). -/
def HartSt.running (x : HartSt) : Bool :=
  match x.run with
  | .run | .wfi | .waitt _ => true
  | _ => false

/-- VMID.ID of a hart (R321). -/
def HartSt.vmid (x : HartSt) : BitVec 12 := (sget x.spr 0x110 (Word.raw 0)).dat.extractLsb' 0 12

/-- The lowest-numbered running hart of each partition among the harts that pass a test. -/
def Chip.monitors (c : Chip) : List Hart :=
  let run := c.harts.filter (fun e => e.2.running)
  (run.filter (fun e => !run.any (fun f => decide (f.1 < e.1) && decide (f.2.vmid = e.2.vmid)))).map
    (fun e => BitVec.ofNat 11 e.1)

/-- The lowest-numbered running hart of a partition. -/
def Chip.monitorOf (c : Chip) (vmid : BitVec 12) : List Hart :=
  c.monitors.filter (fun h => decide ((c.hart h).vmid = vmid))

/-- MACHINE_CHECK pending at the harts named, once, with the first event's address and detail (R306, R308); it drives
FAULT_N (R699). -/
def Chip.notifyMc (c : Chip) (hs : List Hart) (addr : Datum) (detail : Nat) : Chip :=
  let c := hs.foldl (fun c h => c.modHart h (fun x =>
    if x.pMc.isSome then x else { x with pMc := some ⟨addr, BitVec.ofNat 16 detail⟩ })) c
  { c with mcSeen := true }

/-- A machine check of R36: reported at the harts named, and a freeze with trigger bit 0 (R40). `src` names the first
entry its error wrote. -/
def Chip.machineCheck (c : Chip) (hs : List Hart) (addr : Datum) (detail : Nat) (src : Datum) : Chip :=
  (c.notifyMc hs addr detail).freeze 0 src

/-- HEADFRAME_EMERGENCY at the lowest-numbered running hart of each partition (R620, R630). -/
def Chip.emergencyAt (c : Chip) (detail : Nat) : Chip :=
  c.monitors.foldl (fun c h => c.modHart h (fun x =>
    if x.pHe.isSome then x else { x with pHe := some ⟨0, BitVec.ofNat 16 detail⟩ })) c

/-- Record an access to an unpopulated address in HDF_0 with code 8 (R672, R680). -/
def Chip.unpopulated (c : Chip) (who : Requester) (pa : Nat) : Chip := c.err (Blk.hdf.base 0) who 8 pa

end Sys2Proof.Machine
end

