-- ==== Sys2Proof/Machine/Mem.lean ====
section
/-! DEFINITION. Memory at its physical addresses: cells, lines, placement (R395, R396), the physical address map (R670), the
errors that its arrays and HBM meet (R29, R36, R44, R77, R409, R410), and the accesses of cores and units (R352–R360). -/
namespace Sys2Proof.Machine

/-- What an address of the physical map is (R670). -/
inductive Region where
  | dram | empty | host | aperture | regs | boot
  deriving DecidableEq, Repr

/-- Bytes of local datum DRAM (R1, R3). -/
def Chip.dramEnd (c : Chip) : Nat := if c.cap128 then 2 ^ 37 else 2 ^ 38

/-- The tag-plane aperture's base (R398): also the key of a tag byte (DESIGN CHOICE, log 28). -/
def tagBase : Nat := 0xE000000000000
/-- The host window's base (R670). -/
def hostBase : Nat := 0x4000000000000
/-- The register pages' base (R682). -/
def regBase : Nat := 0xFF00000000000
/-- The boot and staging region's base (R671). -/
def bootBase : Nat := 0xFFF0000000000

/-- The physical address map (R670). -/
def Chip.region (c : Chip) (p : Nat) : Region :=
  if p < c.dramEnd then .dram
  else if hostBase ≤ p ∧ p < hostBase + 2 ^ 46 then .host
  else if tagBase ≤ p ∧ p < tagBase + c.dramEnd / 8 then .aperture
  else if regBase ≤ p ∧ p < regBase + 2 ^ 28 then .regs
  else if bootBase ≤ p ∧ p < bootBase + 2 ^ 24 then .boot
  else .empty

/-- A byte of memory at its key; an unlisted key reads 0 (R82, R83). -/
def cellGet (m : List Host.Cell) (k : Nat) : Byte := (m.lookup k).getD 0
/-- A byte of memory written, keeping the canonical form. -/
def cellSet (m : List Host.Cell) (k : Nat) (b : Byte) : List Host.Cell := sset m k b 0
/-- Several bytes written in order. -/
def cellsSet (m : List Host.Cell) (l : List Host.Cell) : List Host.Cell := l.foldl (fun m e => cellSet m e.1 e.2) m

/-- The canonical form of memory: addresses strictly rising, and no entry equal to what an unlisted address reads as
(DESIGN CHOICE, log 28). -/
def Memory.wf : List Host.Cell → Bool
  | [] => true
  | [e] => decide (e.2 ≠ 0)
  | e :: f :: t => decide (e.1 < f.1) && decide (e.2 ≠ 0) && Memory.wf (f :: t)

/-- The word at an 8-aligned datum PA (R42, R398) (DESIGN CHOICE, log 28). -/
def memWord (m : List Host.Cell) (p : Nat) : Word :=
  ⟨cellGet m (tagBase + p / 8), dat (ofBytes ((List.range 8).map (fun i => cellGet m (p + i))))⟩
/-- The cells of a word at an 8-aligned datum PA. -/
def wordCells (p : Nat) (w : Word) : List Host.Cell :=
  ((List.range 8).map (fun i => (p + i, w.dat.extractLsb' (8 * i) 8))) ++ [(tagBase + p / 8, w.tag)]
/-- The cells of k datum bytes. -/
def byteCells (p : Nat) (l : List Byte) : List Host.Cell := l.mapIdx (fun i b => (p + i, b))

/-- The POISON condition (R76). -/
def poisonTag : Byte := 0xDF
/-- A word carries POISON. -/
def isPoison (w : Word) : Bool := decide (w.tag = 0xDF)

/-- The line of a cell key: 64 datum bytes with their eight tags (R352). -/
def lineOfKey (k : Nat) : Nat := if tagBase ≤ k then (k - tagBase) / 8 else k / 64
/-- The cells of a line. -/
def grabLine (m : List Host.Cell) (l : Nat) : List Host.Cell := m.filter (fun e => decide (lineOfKey e.1 = l))
/-- Memory with a line's cells replaced. -/
def putLine (m : List Host.Cell) (l : Nat) (old : List Host.Cell) : List Host.Cell :=
  cellsSet (m.filter (fun e => decide (lineOfKey e.1 ≠ l))) old

/-- The controller of a datum PA. -/
def ctlOf (p : Nat) : Nat := ctlOfGranule (p / 512)
/-- Slots in a stack (R396): slot n is the tail store. -/
def Chip.slots (c : Chip) : Nat := if c.cap128 then 29826161 else 59652323

/-- The stack byte address of a datum line, and of a granule's tag line (R396); the tail store's slot is n, and its tag line
follows its datum lines (R397). -/
def datumAddr (l : Nat) : Nat := 512 * slotOfGranule (l / 8) + 64 * (l % 8)
def Chip.tagAddr (c : Chip) (g : Nat) : Nat :=
  if slotOfGranule g = c.slots then 512 * c.slots + 512 else 512 * c.slots + 64 * slotOfGranule g
/-- The granule in a controller's slot (R395): the one of nine that the placement gives it. -/
def granuleAt (m slot : Nat) : Option Nat := (List.range 9).find? (fun i => decide (ctlOfGranule (9 * slot + i) = m)) |>.map (9 * slot + ·)
/-- The granule lies in a tail store (R397). -/
def Chip.inTail (c : Chip) (g : Nat) : Bool := decide (slotOfGranule g = c.slots)

/-- The meta symbol of a datum line (R402): UNIF with UTAG where the eight stored tags are equal, else PANY. -/
def metaSymbol (m : List Host.Cell) (l : Nat) : BitVec 16 :=
  let tags := (List.range 8).map (fun i => cellGet m (tagBase + 8 * l + i))
  let t := cellGet m (tagBase + 8 * l)
  if tags.all (fun u => decide (u = t)) then 0x8000 ||| (t.zeroExtend 16 <<< 7)
  else if tags.contains poisonTag then 0x0040 else 0

/-- The tile of a line's home: a hash over the tiles whose L3 domains are ON (R357, R615). -/
def Chip.homeTile (c : Chip) (l : Nat) : Option Nat :=
  let on := (List.range 8).filter (fun t => decide (c.dom (10 * t + 8) = .on))
  on[Config.lineHash l % on.length]?
/-- What the caches depend on. -/
def Chip.cacheEnv (c : Chip) : CacheEnv where
  home := c.homeTile
  wayLock := fun k => c.reg (Blk.clu.base k + 0x140)
  symbol := metaSymbol c.mem

/-- The MEM page of a controller. -/
def memPage (m : Nat) : Nat := Blk.mem.base m

/-- The words of a line carry POISON; their data stay as read (R410). -/
def Chip.poisonLine (c : Chip) (l : Nat) : Chip :=
  { c with mem := cellsSet c.mem ((List.range 8).map (fun i => (tagBase + 8 * l + i, poisonTag))) }
/-- A fault is met, or gone. -/
def Chip.forget (c : Chip) (p : Place) : Chip := { c with latent := c.latent.filter (fun f => decide (f.place ≠ p)) }

/-- An error in a line that HBM returned (R409, R410): one symbol is corrected, two are detected, and three or more may
be detected, taken for one, or not found (DESIGN CHOICE, log 30). `tag` is a granule's tag line, else a datum line. -/
def Chip.lineError (c : Chip) (tag : Bool) (i n : Nat) : Chip :=
  let m := if tag then ctlOfGranule i else ctlOf (64 * i)
  let pa := dat (if tag then 512 * i else 64 * i)
  let lines := if tag then (List.range 8).map (fun k => 8 * i + k) else [i]
  let c := c.forget (if tag then .tagLine i else .datumLine i)
  let garble := fun (c : Chip) => (lines.flatMap (fun l => (List.range 8).map (fun k => 64 * l + 8 * k))).foldl
    (fun (c : Chip) p =>
      let cells := if tag then [(tagBase + p / 8, (Config.freeDatum c.fresh).extractLsb' 0 8)]
        else byteCells p (bytesOf 8 (Config.freeDatum c.fresh).toNat)
      { c.tick with mem := cellsSet c.mem cells }) c
  let corrected := fun (c : Chip) =>
    ((c.err (memPage m) .hardware 9 0).log 5 m 0x1003 pa (dat (Config.freeNat c.fresh % 36))).tick
  let detected := fun (c : Chip) =>
    let c := c.log 5 m 0x1004 pa (memWord c.mem pa.toNat).dat
    lines.foldl Chip.poisonLine c
  if n ≤ 1 then corrected c
  else if n = 2 then detected c
  else
    let k := Config.freeNat c.fresh % 3
    let c := c.tick
    if k = 0 then detected c else if k = 1 then corrected (garble c) else garble c

/-- The source of an on-chip array's entry (R645): kind and instance, of a cache, or of a controller's Caddy or tail store. -/
def cacheSource (k : CacheKind) (u : Nat) : Nat × Nat :=
  match k with
  | .l1i | .l1d => (1, u)
  | .l2 => (2, u)
  | .l3 => (3, u)
/-- An error of an on-chip array is met (R29, R36): a single bit is corrected; two or more mark poison. -/
def Chip.arrayLog (c : Chip) (src : Nat × Nat) (place : Nat) (n : Nat) (addr d : Datum) : Chip :=
  if n ≤ 1 then c.log src.1 src.2 0x1001 (Config.arrayId place) addr else c.log src.1 src.2 0x1002 addr d
/-- A cached copy's word is marked POISON: the copy is then modified (R77) (DESIGN CHOICE, log 30). -/
def Chip.poisonCopy (c : Chip) (k : CacheKind) (u pa : Nat) : Chip :=
  let l := pa / 64
  let core := match k with | .l1i | .l1d => u | .l2 => 8 * u | .l3 => 64 * u
  let d : Dirty := ⟨l, BitVec.ofNat 9 core, if k = .l1i then .l3 else k, grabLine c.mem l⟩
  { c with
    caches := { c.caches with dirty := if (c.caches.modified l).isSome then c.caches.dirty else c.caches.dirty ++ [d] }
    mem := cellSet c.mem (tagBase + pa / 8) poisonTag }

/-- A fault in a cache, a Caddy, a tail store or HBM is met by a read of its place (R29, R36, R407, R410). -/
def Chip.meet (c : Chip) (e : Latent) : Chip :=
  match e.place with
  | .datumLine l => c.lineError false l e.n
  | .tagLine g => c.lineError true g e.n
  | .cached k u pa _ =>
    let c := (c.forget e.place).arrayLog (cacheSource k u) (match k with | .l1i => 0 | .l1d => 1 | .l2 => 2 | .l3 => 3) e.n
      (dat pa) (memWord c.mem pa).dat
    if e.n ≤ 1 then c else c.poisonCopy k u pa
  | .caddy g i =>
    let pa := 512 * g + 8 * i.val
    let c := (c.forget e.place).arrayLog (5, ctlOfGranule g) 4 e.n (dat pa) (memWord c.mem pa).dat
    if e.n ≤ 1 then c else ((List.range 8).map (fun k => 8 * g + k)).foldl Chip.poisonLine c
  | .tail pa _ =>
    let c := (c.forget e.place).arrayLog (5, ctlOf pa) 5 e.n (dat pa) (memWord c.mem pa).dat
    if e.n ≤ 1 then c else { c with mem := cellSet c.mem (tagBase + pa / 8) poisonTag }
  | _ => c
/-- The faults of places that pass a test are met. -/
def Chip.meetAll (c : Chip) (sel : Place → Bool) : Chip :=
  if c.latent.isEmpty then c else (c.latent.filter (fun e => sel e.place)).foldl Chip.meet c
/-- The faults of places that pass a test are gone with what they lay in. -/
def Chip.forgetAll (c : Chip) (sel : Place → Bool) : Chip :=
  if c.latent.isEmpty then c else { c with latent := c.latent.filter (fun e => !sel e.place) }

/-- What a change of the caches does to a fault: a line that enters the caches has been read from HBM, one that was written
back has been written whole, a copy that moved has been read, and one that was dropped is gone (R407, R410). -/
def meetsOnMove (x y : Caches) (p : Place) : Bool :=
  match p with
  | .datumLine l => (y.slots.any (fun s => decide (s.line = l) && s.held)) && !(x.slots.any (fun s => decide (s.line = l) && s.held))
      && (x.modified l).isNone
  | .tail pa _ => (y.slots.any (fun s => decide (s.line = pa / 64) && s.held)) && !(x.slots.any (fun s => decide (s.line = pa / 64) && s.held))
      && (x.modified (pa / 64)).isNone
  | .tagLine g => (y.caddy.any (fun e => decide (e.granule = g))) && !(x.caddy.any (fun e => decide (e.granule = g)))
  | .cached k u pa _ =>
    let l := pa / 64
    let mine := match x.modified l with
      | some d => decide (d.at_ = k) && decide ((match k with
          | .l1d | .l1i => d.core.toNat | .l2 => d.core.toNat / 8 | .l3 => u) = u)
      | none => false
    (x.copyIn k u l).isSome &&
      ((mine && !(y.dirty.any (fun d => decide (d.line = l) && decide (d.at_ = k))))
       || ((k = .l2 || k = .l3) && y.slots.any (fun s => decide (s.line = l) && s.held && (s.kind = .l1i || s.kind = .l1d || decide (k = .l3))
            && !x.slots.any (fun t => decide (t = s)))))
  | .caddy g _ => x.caddy.any (fun e => decide (e.granule = g) && e.dirty) && !y.caddy.any (fun e => decide (e.granule = g))
  | _ => false
/-- And the faults that are gone without being met. -/
def goneOnMove (x y : Caches) (p : Place) : Bool :=
  match p with
  | .datumLine l => (x.modified l).isSome && (y.modified l).isNone
  | .tail pa _ => (x.modified (pa / 64)).isSome && (y.modified (pa / 64)).isNone
  | .tagLine g => x.caddy.any (fun e => decide (e.granule = g) && e.dirty) && !y.caddy.any (fun e => decide (e.granule = g))
  | .cached k u pa _ => (y.copyIn k u (pa / 64)).isNone
  | .caddy g _ => !y.caddy.any (fun e => decide (e.granule = g))
  | _ => false

/-- The caches change, by an activity that chooses freely where the manual does (R354): the faults that the moves of lines
meet are met. -/
def Chip.setCaches (c : Chip) (y : Caches) : Chip :=
  let x := c.caches
  let c := { c.tick with caches := y }
  (c.meetAll (meetsOnMove x y)).forgetAll (goneOnMove x y)

/-- A modified copy of a line is recalled: written to HBM, and kept unmodified (R360, R379). -/
def Chip.recall (c : Chip) (l : Nat) : Chip :=
  c.setCaches ((c.caches.writeBack c.cacheEnv l (Config.freeNat c.fresh)).record l)
/-- Every copy of a line is dropped, a modified one written back first (R358, R360, R390). -/
def Chip.invalidate (c : Chip) (l : Nat) : Chip :=
  c.setCaches (c.caches.invalidate c.cacheEnv l (Config.freeNat c.fresh))
/-- The caches change by a maintenance operation that may discard a line's modified data: its words then go on from what HBM
holds (R379, R381). -/
def Chip.setDropped (c : Chip) (l : Nat) (y : Caches) : Chip :=
  match c.caches.modified l, y.modified l with
  | some d, none =>
    let c := { c.tick with caches := y, mem := putLine c.mem l d.old }
    c.forgetAll (fun p => match p with
      | .cached k u pa _ => (y.copyIn k u (pa / 64)).isNone
      | _ => false)
  | _, _ => c.setCaches y

/-- Reservations on a line lost to a write by an agent other than the thread named (R165). -/
def Chip.loseResv (c : Chip) (l : Nat) (except : Option Hart) : Chip :=
  (c.harts.filter (fun e => decide (e.2.resv.map (fun p => p.toNat / 64) = some l)
      && decide (some (BitVec.ofNat 11 e.1 : Hart) ≠ except))).foldl
    (fun c e => c.modHart (BitVec.ofNat 11 e.1) (fun x => { x with resv := none })) c

/-- The lines a list of cells lies in. -/
def linesOf (l : List Host.Cell) : List Nat := (l.map (fun e => lineOfKey e.1)).eraseDups

/-- The word of a cache's copy is read: its errors are met (R29, R36). -/
def Chip.meetWord (c : Chip) (k : CacheKind) (u p : Nat) : Chip :=
  c.meetAll (fun q => match q with
    | .cached k' u' pa _ => decide (k' = k) && decide (u' = u) && decide (pa / 8 = p / 8)
    | _ => false)

/-- Count a performance event of a hart's core (R685) (DESIGN CHOICE, log 37). -/
def Chip.pmc (c : Chip) (h : Hart) (ev n : Nat) : Chip :=
  let page := Blk.cor.base (clusterOf h).toNat
  if c.hartDom h ≠ .on then c
  else (List.range 4).foldl (fun c i =>
    let o := page + 0x100 + 0x20 * ((coreOf h).toNat % 8) + 8 * i
    let d := c.reg o
    if d ≠ 0 && decide (fld d 55 48 = ev) then
      let s := fld d 47 0 + n
      c.setReg o ((setFld d 47 0 s) ||| (if s ≥ 2 ^ 48 then dat (2 ^ 63) else 0))
    else c) c
/-- An access through an L1 counts its misses: of the L1 for data, and of the L2 (R685) (DESIGN CHOICE, log 37). -/
def Chip.countMiss (c : Chip) (h : Hart) (k : CacheKind) (l : Nat) : Chip :=
  if (c.caches.copyIn k (coreOf h).toNat l).isSome then c
  else
    let far := (c.caches.copyIn .l2 (clusterOf h).toNat l).isNone
    let c := if k = .l1d then c.pmc h 0x03 1 else c
    if far then c.pmc h 0x04 1 else c

/-- A core loads or fetches the word at a datum PA of DRAM through its L1 (R352–R357, R406): `tags` where its tag is used,
`pf` where a miss prefetches (R355). -/
def Chip.coreRead (c : Chip) (h : Hart) (k : CacheKind) (p : Nat) (tags pf : Bool) : Chip :=
  let core := (coreOf h).toNat
  let c := c.countMiss h k (p / 64)
  (c.setCaches (c.caches.read c.cacheEnv k core (p / 64) (Config.freeNat c.fresh) tags pf)).meetWord k core p

/-- The parts of a cached copy that cells overwrite whole hold no error any more. -/
def Chip.overwritten (c : Chip) (k : CacheKind) (u : Nat) (cells : List Host.Cell) : Chip :=
  c.forgetAll (fun q => match q with
    | .cached k' u' pa part => decide (k' = k) && decide (u' = u) &&
        (if part.val = 2 then cells.any (fun e => decide (e.1 = tagBase + pa / 8))
         else (List.range 4).all (fun i => cells.any (fun e => decide (e.1 = pa / 8 * 8 + 4 * part.val + i))))
    | _ => false)

/-- A store performed by a core: the line becomes modified in its L1 (R357). -/
def Chip.coreWrite (c : Chip) (h : Hart) (cells : List Host.Cell) (pf : Bool := false) : Chip :=
  let core := coreOf h
  let c := (linesOf cells).foldl (fun (c : Chip) l =>
    let tags := cells.any (fun e => decide (tagBase ≤ e.1) && decide (lineOfKey e.1 = l))
    let c := c.countMiss h .l1d l
    let x := c.caches.read c.cacheEnv .l1d core.toNat l (Config.freeNat c.fresh) tags pf
    let c := c.setCaches x
    let c := c.setCaches (c.caches.own c.cacheEnv core l (Config.freeNat c.fresh) tags (grabLine c.mem l))
    c.loseResv l (some h)) c
  let c := c.overwritten .l1d core.toNat cells
  { c with mem := cellsSet c.mem cells }

/-- The tags of a line are read at memory: from its meta symbol or, where it is mixed, through the Caddy (R402, R407, R410). -/
def Chip.readTags (c : Chip) (l : Nat) : Chip :=
  if c.cacheEnv.unif l then c
  else
    let c := c.setCaches (c.caches.tagLine (l / 8) (Config.freeNat c.fresh) false)
    c.meetAll (fun p => match p with | .caddy g i => decide (g = l / 8) && decide (i.val / 8 = l % 8) | _ => false)
/-- HBM is read for a line: its datum line, and its tags where `tags` or PANY asks for them (R402, R405–R407, R410). No modified
copy of the line is left. -/
def Chip.readLine (c : Chip) (l : Nat) (tags : Bool) : Chip :=
  let c := c.meetAll (fun p => match p with
    | .datumLine k => decide (k = l)
    | .tail pa part => decide (pa / 64 = l) && (decide (part.val ≠ 2) || tags)
    | _ => false)
  if tags || c.cacheEnv.pany l then c.readTags l else c
/-- A unit or an agent reads a line at memory: a modified copy is recalled first (R360). -/
def Chip.agentRead (c : Chip) (l : Nat) (tags : Bool) : Chip := (c.recall l).readLine l tags

/-- A write by an agent at memory: modified copies are recalled and every other copy invalidated first (R360). A write of part
of a line's data reads the rest (R404); a change of tags alone reads and writes no data (R405); a line that is then mixed
writes its tags through the Caddy (R403, R407). -/
def Chip.agentWrite (c : Chip) (cells : List Host.Cell) (by_ : Option Hart := none) : Chip :=
  let c := (linesOf cells).foldl (fun (c : Chip) l => (c.invalidate l).loseResv l by_) c
  let data := fun (l : Nat) => cells.filter (fun e => decide (e.1 < tagBase) && decide (lineOfKey e.1 = l))
  let c := if c.latent.isEmpty then c else (linesOf cells).foldl (fun (c : Chip) l =>
    let n := (data l).length
    if n = 0 then c
    else if n ≥ 64 then c.forgetAll (fun p => decide (p = .datumLine l))
    else c.meetAll (fun p => decide (p = .datumLine l))) c
  let c := { c with mem := cellsSet c.mem cells }
  let tagged := (linesOf cells).filter (fun l => cells.any (fun e => decide (tagBase ≤ e.1) && decide (lineOfKey e.1 = l)))
  tagged.foldl (fun (c : Chip) l =>
    if c.cacheEnv.unif l then c else c.setCaches (c.caches.tagLine (l / 8) (Config.freeNat c.fresh) true)) c

/-- The word at a datum PA as memory delivers it: POISON from a failed controller (R36). -/
def Chip.word (c : Chip) (p : Nat) : Word :=
  let w := memWord c.mem p
  if c.ctlFailed.getLsbD (ctlOf p) then { w with tag := poisonTag } else w

/-- A unit reads the word at a PA: DRAM, or POISON where nothing lies there, counted in HDF_0 (R672). -/
def Chip.unitRead (c : Chip) (p : Nat) (tags : Bool := true) : Chip × Word :=
  match c.region p with
  | .dram => let c := c.agentRead (p / 64) tags; (c, c.word (p / 8 * 8))
  | _ => (c.unpopulated .hardware p, ⟨poisonTag, 0⟩)

/-- A unit writes words at a PA; outside DRAM the write is discarded and counted (R672). -/
def Chip.unitWrite (c : Chip) (p : Nat) (w : Word) (by_ : Option Hart := none) : Chip :=
  match c.region p with
  | .dram => c.agentWrite (wordCells (p / 8 * 8) w) by_
  | _ => c.unpopulated .hardware p

end Sys2Proof.Machine
end

