-- ==== Sys2Proof/Machine/Ops.lean ====
section
/-! DEFINITION. Types and well-formed words (R45–R53), physical registers and windows (R85–R92), special registers as
held, and the step an instruction takes: a trap, an escalation, a wait, or a new state. -/
namespace Sys2Proof.Machine

/-- A synchronous trap as its frame records it (R284–R286). -/
structure Trap where
  cause : Nat
  addr : Datum := 0
  access : Nat := 0
  detail : Nat := 0
  stage : Nat := 0
  level : Nat := 3
  ipa : Option Datum := none
  noInsn : Bool := false
  deriving DecidableEq, Repr

/-- Why an instruction does not complete: a trap, a synchronous escalation (R304), or a wait that leaves it not begun. -/
inductive Stop where
  | trap (t : Trap)
  | esc (v : Nat) (t : Trap)
  | wait
  deriving DecidableEq, Repr

/-- A computation over the chip that may stop. -/
abbrev M := EStateM Stop Chip

/-- Stop with a trap. -/
def raise {α : Type} (t : Trap) : M α := throw (.trap t)
/-- Trap causes by name (R275). -/
def cReserved : Nat := 0x01
def cIllegal : Nat := 0x02
def cPrivilege : Nat := 0x03
def cFetchTag : Nat := 0x04
def cPoison : Nat := 0x05
def cAlign : Nat := 0x06
def cTransl : Nat := 0x07
def cPerm : Nat := 0x08
def cWalkDev : Nat := 0x09
def cTagInvalid : Nat := 0x0A
def cNotRaw : Nat := 0x0B
def cMono : Nat := 0x0C
def cUnbound : Nat := 0x0D
def cFut : Nat := 0x0E
def cType : Nat := 0x0F
def cBounds : Nat := 0x10
def cDivZero : Nat := 0x11
def cFp : Nat := 0x12
def cTab : Nat := 0x13
def cBigLimit : Nat := 0x14
def cAtomRange : Nat := 0x15
def cTubFull : Nat := 0x16
def cTubEmpty : Nat := 0x17
def cRemote : Nat := 0x18
def cBlend : Nat := 0x19
def cCfi : Nat := 0x1A
def cSoft : Nat := 0x1B
def cWinOver : Nat := 0x1C
def cWinUnder : Nat := 0x1D
def cDepth : Nat := 0x1E
def cDse : Nat := 0x1F
def cDebug : Nat := 0x20

/-- The hart. -/
def hartM (h : Hart) : M HartSt := do return (← get).hart h
/-- Change the hart. -/
def modM (h : Hart) (f : HartSt → HartSt) : M Unit := modify (fun c => c.modHart h f)
/-- A condition that traps where it does not hold. -/
def need (b : Bool) (t : Trap) : M Unit := if b then pure () else raise t

/-- The row of a type in the property table (R46, R47). -/
def Chip.row (c : Chip) (t : BitVec 6) : Datum := c.reg (Blk.typ.base 0 + 0x100 + 8 * t.toNat)
/-- PTR, IMM, NUM, GLOB and HDRP of a type's row. -/
def Chip.ptr (c : Chip) (w : Word) : Bool := bit (c.row w.type) 7
def Chip.imm (c : Chip) (w : Word) : Bool := bit (c.row w.type) 6
def Chip.num (c : Chip) (w : Word) : Bool := bit (c.row w.type) 5
def Chip.glob (c : Chip) (w : Word) : Bool := bit (c.row w.type) 4
def Chip.hdrp (c : Chip) (w : Word) : Bool := bit (c.row w.type) 3

/-- The datum condition of the Type codes table (R45). -/
def Chip.datumOk (c : Chip) (w : Word) : Bool :=
  let t := w.type.toNat
  let n := w.dat.toNat
  if t = 0x03 then decide (n ≤ 0x10FFFF) && !(decide (0xD800 ≤ n) && decide (n ≤ 0xDFFF))
  else if t = 0x04 then decide (n = 0)
  else if t = 0x05 then decide (n < 2 ^ 32)
  else if (0x07 ≤ t ∧ t ≤ 0x0F) ∨ t = 0x13 ∨ t = 0x14 then localForm w.dat
  else if t = 0x11 then decide (n % 8 = 0)
  else if t = 0x12 then codeForm w.dat
  else if 0x16 ≤ t ∧ t < 0x20 then false
  else if 0x20 ≤ t then (if c.ptr w then localForm w.dat else true)
  else true

/-- A well-formed word (R53). -/
def Chip.wellFormed (c : Chip) (w : Word) : Bool :=
  (c.ptr w || c.imm w) && (c.ptr w || decide (w.colour = 0)) && c.datumOk w

/-- A word an instruction may produce: well formed, and neither INSN nor FWD (R55, R56). -/
def Chip.producible (c : Chip) (w : Word) : Bool :=
  c.wellFormed w && decide (w.type ≠ 0x15) && decide (w.type ≠ 0x07)

/-- Constants of R45 and R75. -/
def wNil : Word := ⟨0x04, 0⟩
def wTrue : Word := ⟨0x05, 1⟩
/-- A word of each type the module itself makes. -/
def wFix (n : Int) : Word := ⟨0x01, BitVec.ofInt 64 n⟩
def wFlo (d : Datum) : Word := ⟨0x02, d⟩
def wCode (d : Datum) : Word := ⟨0x12, d⟩
def wFrame (d : Datum) : Word := ⟨0x13, d⟩

/-- Reset value of a special register as held (R132). -/
def sprReset (n : Nat) : Word :=
  if n = 0x000 then .raw 3 else if n = 0x04E then .raw 0x100 else if n = 0x081 then .raw 0xFFFF else .raw 0
/-- A special register as held. -/
def HartSt.sprW (x : HartSt) (n : Nat) : Word := sget x.spr n (sprReset n)
/-- Its datum. -/
def HartSt.sprD (x : HartSt) (n : Nat) : Datum := (x.sprW n).dat
/-- Set a special register. -/
def HartSt.setSprW (x : HartSt) (n : Nat) (w : Word) : HartSt := { x with spr := sset x.spr n w (sprReset n) }
/-- Set a special register to a RAW datum. -/
def HartSt.setSpr (x : HartSt) (n : Nat) (d : Datum) : HartSt := x.setSprW n (.raw d)
/-- A physical register (DESIGN CHOICE, log 4). -/
def HartSt.preg (x : HartSt) (i : Nat) : Word := sget x.regs i (.raw 0)
/-- Set a physical register; SP (416) and TP (417) keep only the datum (R85). Errors of the word it held are gone (R44). -/
def HartSt.setPreg (x : HartSt) (i : Nat) (w : Word) : HartSt :=
  { x with regs := sset x.regs i (if i ≥ 416 then .raw w.dat else w) (.raw 0)
           bad := x.bad.filter (fun f => decide (f.preg ≠ i)) }

/-- PSTATE and its fields (R133). -/
def HartSt.pstate (x : HartSt) : Datum := x.sprD 0x000
def HartSt.priv (x : HartSt) : Nat := fld x.pstate 1 0
def HartSt.ie (x : HartSt) : Bool := bit x.pstate 2
def HartSt.tramMode (x : HartSt) : Bool := bit x.pstate 3
def HartSt.ldepth (x : HartSt) : Nat := fld x.pstate 6 4
def HartSt.repa (x : HartSt) : Bool := bit x.pstate 7
/-- WIN_PTR and its fields (R89). -/
def HartSt.winPtr (x : HartSt) : Datum := x.sprD 0x04E
def HartSt.cwp (x : HartSt) : Nat := fld x.winPtr 3 0
def HartSt.resident (x : HartSt) : Nat := fld x.winPtr 12 8
def HartSt.spilled (x : HartSt) : Nat := fld x.winPtr 47 32
def HartSt.oldest (x : HartSt) : Nat := (x.cwp + 33 - x.resident) % 16
def HartSt.setWin (x : HartSt) (cwp res spl : Nat) : HartSt :=
  x.setSpr 0x04E (dat (spl % 2 ^ 16 * 2 ^ 32 + res % 32 * 2 ^ 8 + cwp % 16))
/-- ESC_STATE.ACTIVE (R313). -/
def HartSt.active (x : HartSt) : Nat := fld (x.sprD 0x100) 7 0
def HartSt.sp (x : HartSt) : Datum := (x.preg 416).dat
def HartSt.tp (x : HartSt) : Datum := (x.preg 417).dat

/-- The physical register of a specifier in window w (R85, R88); none for ZR, NL and the reserved ones. -/
def pregOf (w : Nat) (r : BitVec 6) : Option Nat :=
  let n := r.toNat
  if n < 16 then some (384 + n)
  else if n < 24 then some ((24 * w + 24 + (n - 16)) % 384)
  else if n < 40 then some (24 * w + 8 + (n - 24))
  else if n < 48 then some (24 * w + (n - 40))
  else if n = 50 then some 416
  else if n = 51 then some 417
  else none

/-- The context group of a physical register in window w (R115). -/
def groupOfPreg (w i : Nat) : Option Nat :=
  if i = 416 ∨ i = 417 then some 8
  else if 400 ≤ i then (if i = 400 + w then some 7 else none)
  else if 384 ≤ i then some (if i < 392 then 0 else 1)
  else
    let k := (i + 384 - 24 * w % 384) % 384
    if k < 8 then some 2 else if k < 16 then some 3 else if k < 24 then some 4 else if k < 32 then some 5 else none

/-- The context group of a special register (R115). -/
def groupOfSpr (n : Nat) : Option Nat :=
  if n < 8 then some 8 else if n < 0x40 then some (8 + n / 8) else if n < 0x48 then some 6
  else if n < 0x50 then some 7 else none

/-- Set the DIRTY bit of a group (R124). -/
def HartSt.dirty (x : HartSt) (g : Option Nat) : HartSt :=
  match g with
  | some g => x.setSpr 0x081 (x.sprD 0x081 ||| dat (2 ^ g))
  | none => x
/-- Group g awaits its lazy load (R123). -/
def HartSt.pending (x : HartSt) (g : Nat) : Bool := bit (x.sprD 0x081) (16 + g)

/-- Write a physical register and set its group's DIRTY bit (R124). -/
def HartSt.putPreg (x : HartSt) (i : Nat) (w : Word) : HartSt := (x.setPreg i w).dirty (groupOfPreg x.cwp i)
/-- Write a special register and set its group's DIRTY bit (R124). -/
def HartSt.putSpr (x : HartSt) (n : Nat) (d : Datum) : HartSt := (x.setSpr n d).dirty (groupOfSpr n)

/-- Advance the window: CWP and RESIDENT by one, K and P of the new window RAW zero, its RLINK set (R91, R92, R124)
(DEDUCED, log 20). -/
def HartSt.advance (x : HartSt) (link : Word) : HartSt :=
  let w := (x.cwp + 1) % 16
  let x := x.setWin w (x.resident + 1) x.spilled
  let x := (List.range 24).foldl (fun x i => x.setPreg ((24 * w + 8 + i) % 384) (.raw 0)) x
  let x := x.setPreg (400 + w) link
  x.setSpr 0x081 (x.sprD 0x081 ||| 0xFC)

/-- Retreat the window (R91, R124) (DEDUCED, log 20). -/
def HartSt.retreat (x : HartSt) : HartSt :=
  (x.setWin ((x.cwp + 15) % 16) (x.resident - 1) x.spilled).setSpr 0x081 (x.sprD 0x081 ||| 0xFC)

/-- The regime of a hart at a privilege (R318). -/
def HartSt.regimeAt (x : HartSt) (priv : Nat) : Regime :=
  ⟨BitVec.ofNat 2 priv, x.sprD 0x007, x.sprD 0x110, x.sprD 0x111, x.sprD 0x112⟩
/-- The regime of a hart. -/
def HartSt.regime (x : HartSt) : Regime := x.regimeAt x.priv

/-- The context that collects a partition (R438). -/
def sluBase : Nat := Blk.slu.base 8
def ctxReg (k off : Nat) : Nat := sluBase + 0x100 + 0x80 * k + off
def Chip.ctxEn (c : Chip) (k : Nat) : Bool := bit (c.reg (ctxReg k 0)) 63
def Chip.ctxOf (c : Chip) (vmid : BitVec 12) : Option Nat :=
  (List.range 16).find? (fun k => c.ctxEn k && decide (c.rf (ctxReg k 0) 11 0 = vmid.toNat))
/-- STATUS.EPOCH, STATUS.GOOD and STATUS.PHASE of a context (R485). -/
def Chip.ctxEpoch (c : Chip) (k : Nat) : Nat := c.rf (ctxReg k 0x38) 63 48
def Chip.ctxGood (c : Chip) (k : Nat) : BitVec 2 := BitVec.ofNat 2 (c.rf (ctxReg k 0x38) 47 46)
def Chip.ctxPhase (c : Chip) (k : Nat) : Nat := c.rf (ctxReg k 0x38) 45 43
/-- The work of a context beside its registers. -/
def SluCtx.reset : SluCtx := ⟨false, 0, 0, 0, false, false, 0, false, 0, 0, [], [], [], [], [], false, none⟩
def Chip.slc (c : Chip) (k : Nat) : SluCtx := sget c.slu k SluCtx.reset
def Chip.setSlc (c : Chip) (k : Nat) (x : SluCtx) : Chip := { c with slu := sset c.slu k x SluCtx.reset }

/-- The good colour a hart sees (R439, R443) (DEDUCED, log 35). -/
def Chip.goodOf (c : Chip) (x : HartSt) : BitVec 2 := if (c.ctxOf x.vmid).isSome then x.good else 1

end Sys2Proof.Machine
end

