-- ==== Sys2Proof/Machine/Wire.lean ====
section
/-! DEFINITION. Drift and PTP frames as bytes on the wire, header fields most significant byte first (R11, R517, R519, R526,
R527, R553). The FCS follows the bytes given here. -/
namespace Sys2Proof.Machine

/-- The k bytes of a number, highest first (R11). -/
def wireBytes (k n : Nat) : List Byte := (List.range k).map (fun i => BitVec.ofNat 8 (n >>> (8 * (k - 1 - i))))
/-- The number whose bytes, highest first, are given (R11). -/
def wireNat (l : List Byte) : Nat := l.foldl (fun n b => n * 256 + b.toNat) 0
/-- The number in k bytes of a list, from byte i on. -/
def wireAt (l : List Byte) (i k : Nat) : Nat := wireNat ((l.drop i).take k)

/-- The MAC address of port p of node n (R519). -/
def macOf (n : BitVec 18) (p : Nat) : Nat := 0x0A * 2 ^ 40 + n.toNat * 2 ^ 4 + p % 4 * 2 ^ 2
/-- A C-tag: the tag protocol identifier 0x8100 of IEEE 802.1Q, PCP, DEI and VID (R517) (PRESUMED, log 71). -/
def ctag (pcp : BitVec 3) (dei : Bool) (vid : BitVec 12) : List Byte :=
  wireBytes 2 0x8100 ++ wireBytes 2 (pcp.toNat * 2 ^ 13 + (if dei then 2 ^ 12 else 0) + vid.toNat)

/-- A record operation carries an ADDR field (R528): the requests 0x01 to 0x08 do. -/
def opAddr (op : Byte) : Bool := decide (1 ≤ op.toNat) && decide (op.toNat ≤ 8)
/-- A word on the wire: the tag byte, then the datum (R527). -/
def wordWire (w : Word) : List Byte := w.tag :: wireBytes 8 w.dat.toNat
/-- A record on the wire (R527). -/
def Record.wire (r : Record) : List Byte :=
  wireBytes 8 (r.op.toNat * 2 ^ 56 + r.win.toNat * 2 ^ 52 + r.words.length % 16 * 2 ^ 48 + r.rtag.toNat * 2 ^ 32
      + r.err.toNat * 2 ^ 16 + r.hart.toNat * 2 ^ 5)
    ++ (if opAddr r.op then wireBytes 8 r.addr.toNat else []) ++ r.words.flatMap wordWire

/-- The Drift header (R526). -/
def Frame.header (f : Frame) : List Byte :=
  wireBytes 4 (f.ver.toNat * 2 ^ 28 + f.typ.toNat * 2 ^ 24 + f.cls.toNat * 2 ^ 22 + f.plane.toNat * 2 ^ 20
      + f.recs.length % 16 * 2 ^ 16 + f.session.toNat)
    ++ wireBytes 8 (f.src.toNat * 2 ^ 46 + f.dst.toNat * 2 ^ 28)
    ++ wireBytes 4 f.seq.toNat ++ wireBytes 4 f.ack.toNat ++ wireBytes 4 f.sack.toNat
/-- A frame from its sender's port, padded so that the FCS ends it at 64 bytes or more (R516, R526) (DEDUCED, log 71). -/
def Frame.wire (f : Frame) : List Byte :=
  let b := wireBytes 6 (macOf f.dst f.plane.toNat) ++ wireBytes 6 (macOf f.src f.plane.toNat) ++ ctag f.pcp f.dei f.vid
    ++ wireBytes 2 f.etype.toNat ++ Frame.header f ++ f.recs.flatMap Record.wire
  b ++ List.replicate (60 - b.length) 0

/-- n words of 9 bytes each. -/
def wordsOfWire : Nat → List Byte → List Word
  | 0, _ => []
  | n + 1, l => ⟨(l.headD 0), BitVec.ofNat 64 (wireAt l 1 8)⟩ :: wordsOfWire n (l.drop 9)
/-- n records of a frame, read from its bytes. -/
def recordsOfWire : Nat → List Byte → List Record
  | 0, _ => []
  | n + 1, l =>
    let h := wireAt l 0 8
    let op : Byte := BitVec.ofNat 8 (h / 2 ^ 56)
    let count := h / 2 ^ 48 % 16
    let body := if opAddr op then l.drop 16 else l.drop 8
    { op := op, win := BitVec.ofNat 4 (h / 2 ^ 52), rtag := BitVec.ofNat 16 (h / 2 ^ 32), err := BitVec.ofNat 16 (h / 2 ^ 16),
      hart := BitVec.ofNat 11 (h / 2 ^ 5), addr := if opAddr op then BitVec.ofNat 64 (wireAt l 8 8) else 0,
      words := wordsOfWire count body } :: recordsOfWire n (body.drop (9 * count))
/-- A received frame, read from its bytes (R526, R527). -/
def frameOfWire (l : List Byte) : Frame :=
  let t := wireAt l 14 2
  let a := wireAt l 18 4
  let n := wireAt l 22 8
  { vid := BitVec.ofNat 12 t, pcp := BitVec.ofNat 3 (t / 2 ^ 13), dei := decide (t / 2 ^ 12 % 2 = 1),
    etype := BitVec.ofNat 16 (wireAt l 16 2), ver := BitVec.ofNat 4 (a / 2 ^ 28), typ := BitVec.ofNat 4 (a / 2 ^ 24),
    cls := BitVec.ofNat 2 (a / 2 ^ 22), plane := BitVec.ofNat 2 (a / 2 ^ 20), session := BitVec.ofNat 16 a,
    src := BitVec.ofNat 18 (n / 2 ^ 46), dst := BitVec.ofNat 18 (n / 2 ^ 28), seq := BitVec.ofNat 32 (wireAt l 30 4),
    ack := BitVec.ofNat 32 (wireAt l 34 4), sack := BitVec.ofNat 32 (wireAt l 38 4),
    recs := recordsOfWire (a / 2 ^ 16 % 16) (l.drop 42) }

/-- A record that the wire can carry: at most 15 words, and an ADDR only where its operation has one. -/
def Record.fits (r : Record) : Bool := decide (r.words.length ≤ 15) && (opAddr r.op || decide (r.addr = 0))
/-- A frame that the wire can carry (R526, R527). -/
def Frame.fits (f : Frame) : Bool := decide (f.recs.length ≤ 15) && f.recs.all Record.fits

/-- The Ethernet header of a PTP message from a port of a node (R517, R553): the multicast address, a C-tag at PCP_CTRL, and
the EtherType 0x88F7. -/
def ptpHeader (n : BitVec 18) (p : Nat) (pcp : BitVec 3) (vid : BitVec 12) : List Byte :=
  wireBytes 6 0x011B19000000 ++ wireBytes 6 (macOf n p) ++ ctag pcp false vid ++ wireBytes 2 0x88F7
/-- A timestamp of a PTP message in nanoseconds: six bytes of seconds, then four of nanoseconds (R11, R553). -/
def stampNs (s : List Byte) : Int := (wireAt s 0 6 * 10 ^ 9 + wireAt s 6 4 : Nat)

end Sys2Proof.Machine
end

