-- ==== Sys2Proof/Machine/Link.lean ====
section
/-! DEFINITION. The sending side of Drift (R519–R531): ports, planes, sessions, streams, windows, and records put on a
stream or, for this module's own node, performed at home without a frame (R524). -/
namespace Sys2Proof.Machine

/-- The transport's page DFT_4 and its registers (R521, R522, R525, R531). -/
def dft4 : Nat := Blk.dft.base 4
def Chip.driftEn (c : Chip) : Bool := bit (c.reg (dft4 + 0x100)) 63
def Chip.ownNode (c : Chip) : BitVec 18 := BitVec.ofNat 18 (c.rf (dft4 + 0x100) 61 44)
def gwinCtlAt (k : Nat) : Nat := dft4 + 0x140 + 0x18 * k
def gwinS1At (k : Nat) : Nat := dft4 + 0x148 + 0x18 * k
def gwinS2At (k : Nat) : Nat := dft4 + 0x150 + 0x18 * k

/-- The window a partition's remote operations use: the lowest-numbered open one of its VMID (R523). -/
def Chip.windowOf (c : Chip) (vmid : BitVec 12) : Option Nat :=
  (List.range 16).find? (fun k => bit (c.reg (gwinCtlAt k)) 63 && decide (c.rf (gwinS2At k) 11 0 = vmid.toNat))

/-- A port that carries frames: enabled, up, its domain ON (R534). -/
def Chip.portUp (c : Chip) (p : Nat) : Bool :=
  c.driftEn && decide (c.rf (Blk.dft.base p + 0x100) 9 8 = 1) && bit (c.reg (Blk.dft.base p + 0x100)) 16
    && decide (c.dom (89 + p) = .on)

/-- A stream and a peer context never used (DESIGN CHOICE, log 7). -/
def Stream.reset : Stream := ⟨0, 0, [], [], [], false⟩
def Peer.reset : Peer := ⟨false, 0xF, 0, 0, none, false, Stream.reset, Stream.reset, []⟩
def Chip.peer (c : Chip) (n : BitVec 18) : Peer := sget c.peers n.toNat Peer.reset
def Chip.setPeer (c : Chip) (n : BitVec 18) (p : Peer) : Chip := { c with peers := sset c.peers n.toNat p Peer.reset }
def Peer.stream (p : Peer) (cage : Bool) : Stream := if cage then p.cage else p.gen
def Peer.setStream (p : Peer) (cage : Bool) (s : Stream) : Peer := if cage then { p with cage := s } else { p with gen := s }

/-- The planes usable to a peer, in order (R525, R534). -/
def Chip.planesTo (c : Chip) (p : Peer) : List Nat :=
  (List.range 4).filter (fun k => p.planes.getLsbD k && !p.down.getLsbD k && c.portUp k)

/-- SACK: the frames received ahead of ACK (R526). -/
def Stream.sack (s : Stream) : BitVec 32 :=
  BitVec.ofNat 32 ((s.ahead.map (fun f => (f.seq - s.expect).toNat)).eraseDups.foldl
    (fun a d => if 1 ≤ d ∧ d ≤ 32 then a + 2 ^ (d - 1) else a) 0)

/-- The PCP of a class (R517): 7 for CAGE, and what DRIFT_CFG gives for the others. -/
def Chip.pcpOf (c : Chip) (cls : BitVec 2) : Nat :=
  if cls = 0 then 7
  else if cls = 1 then c.rf (dft4 + 0x100) 15 13 else if cls = 2 then c.rf (dft4 + 0x100) 12 10 else c.rf (dft4 + 0x100) 9 7

/-- A frame of a type and class to a peer (R517, R526). -/
def Chip.mkFrame (c : Chip) (n : BitVec 18) (typ : Nat) (cls : BitVec 2) (recs : List Record) : Frame :=
  let p := c.peer n
  let s := p.stream (decide (cls = 0))
  { vid := BitVec.ofNat 12 (c.rf (dft4 + 0x100) 27 16), pcp := BitVec.ofNat 3 (c.pcpOf cls), dei := false,
    etype := BitVec.ofNat 16 (c.rf (dft4 + 0x100) 43 28), ver := 1, typ := BitVec.ofNat 4 typ, cls := cls, plane := 0, session := p.session, src := c.ownNode, dst := n,
    seq := s.nextSeq, ack := s.expect, sack := s.sack, recs := recs }

/-- Put a frame on a port; PLANE is the sender's port (R526). -/
def Chip.emitOn (c : Chip) (port : Nat) (f : Frame) : Chip := c.emit (.frame port (Frame.wire { f with plane := BitVec.ofNat 2 port }))

/-- Send a frame on the first usable plane; with none usable it is lost, and retransmission finds it (R531, R534). -/
def Chip.emitTo (c : Chip) (n : BitVec 18) (f : Frame) : Chip :=
  match c.planesTo (c.peer n) with
  | p :: _ => c.emitOn p f
  | [] => c

/-- Begin a session: a new random SESSION and new random initial sequence numbers, and a SYN for each stream (R529). -/
def Chip.sendSyn (c : Chip) (n : BitVec 18) : Chip :=
  let r := Config.random c.fresh
  let p := c.peer n
  let c := c.tick.setPeer n { p with
    session := r.extractLsb' 0 16, theirs := none, up := false
    gen := { Stream.reset with nextSeq := r.extractLsb' 16 32 }
    cage := { Stream.reset with nextSeq := r.extractLsb' 48 32 } }
  (c.emitTo n (c.mkFrame n 2 1 [])).emitTo n (c.mkFrame n 2 0 [])

/-- Send a DATA frame in its stream, or hold it for a session or for room among 256 unacknowledged frames (R531). -/
def Chip.sendData (c : Chip) (n : BitVec 18) (f : Frame) : Chip :=
  let p := c.peer n
  let cage := decide (f.cls = 0)
  let s := p.stream cage
  if !p.up || decide (s.unacked.length ≥ 256) then
    let c' := c.setPeer n { p with waiting := p.waiting ++ [f] }
    if p.up || p.session ≠ 0 then c' else c'.sendSyn n
  else
    let f := { f with session := p.session, seq := s.nextSeq, ack := s.expect, sack := s.sack,
                      plane := BitVec.ofNat 2 ((c.planesTo p).headD 0) }
    (c.setPeer n (p.setStream cage { s with nextSeq := s.nextSeq + 1, unacked := s.unacked ++ [f] })).emitTo n f

/-- Send the frames that waited. -/
def Chip.flushWaiting (c : Chip) (n : BitVec 18) : Chip :=
  let p := c.peer n
  p.waiting.foldl (fun c f => c.sendData n f) (c.setPeer n { p with waiting := [] })

/-- The class of a record (R528). -/
def recordClass (r : Record) : BitVec 2 :=
  let o := r.op.toNat
  if o = 0x07 ∨ o = 0x08 then 3
  else if o = 0x09 ∨ o = 0x0A ∨ o = 0x0B ∨ o = 0x8B then 0
  else if 0x80 ≤ o ∧ r.words ≠ [] then 2 else 1

/-- Send a record to a node: at home for this module's own node (R524), else in a frame of one record. -/
def Chip.sendRecord (c : Chip) (n : BitVec 18) (r : Record) : Chip :=
  if n = c.ownNode then { c with home := c.home ++ [⟨n, decide (recordClass r = 0), r, false, none⟩] }
  else c.sendData n (c.mkFrame n 0 (recordClass r) [r])

/-- A record of a collector's job. -/
def jobRecord (op : Nat) (win : Nat) (epoch : Nat) (addr : Datum) : Record :=
  { op := BitVec.ofNat 8 op, win := BitVec.ofNat 4 win, rtag := 0, err := BitVec.ofNat 16 epoch, hart := 0, addr := addr,
    words := [] }

/-- The completion of an operation at its source: a response waiting to be taken by REMOTE_RESPONSE (R536, R538). -/
def Chip.complete (c : Chip) (o : RemoteOp) (err : Nat) (words : List Word) : Chip :=
  { c with home := c.home ++ [⟨o.node, false,
    { op := o.op ||| 0x80, win := o.win, rtag := o.rtag, err := BitVec.ofNat 16 err, hart := o.hart, addr := o.addr,
      words := words }, false, none⟩] }

/-- The lowest record tag free among the outstanding operations. -/
def Chip.freeRtag (c : Chip) : Nat := ((List.range (c.remote.length + c.sends.length + 1)).find? (fun t =>
  !(c.remote ++ c.sends).any (fun (o : RemoteOp) => decide (o.rtag.toNat = t)))).getD 0

/-- Issue a remote operation (R523, R524, R534): it is outstanding from here, and completes at once with an error where
no window matches, Drift is off, no port is usable, or the peer is not enabled. -/
def Chip.issueRemote (c : Chip) (h : Hart) (op : Nat) (gptr : Datum) (addr : Datum) (words : List Word) (dest : Dest)
    (gen : BitVec 16) (vmid : BitVec 12) (priv : Nat) : Chip :=
  let node := gptr.extractLsb' 46 18
  let win := c.windowOf vmid
  let o : RemoteOp := { rtag := BitVec.ofNat 16 c.freeRtag, node := node, hart := h, op := BitVec.ofNat 8 op,
                        win := BitVec.ofNat 4 (win.getD 0), addr := addr, words := words, dest := dest,
                        priv := BitVec.ofNat 2 priv, gen := gen }
  let c := { c with remote := c.remote ++ [o] }
  let c := c.pmc h 0x09 1
  if win.isNone then c.complete o 3 []
  else if node ≠ c.ownNode && (!c.driftEn || (c.planesTo (c.peer node)).isEmpty) then c.complete o 1 []
  else if node ≠ c.ownNode && !(c.peer node).enabled then c.complete o 2 []
  else c.sendRecord node { op := o.op, win := o.win, rtag := o.rtag, err := gen, hart := h, addr := addr, words := words }

end Sys2Proof.Machine
end

