-- ==== Sys2Proof/Machine/Heal.lean ====
section
/-! DEFINITION. The Sluice's view of a heap: heaps, the region table, marks, copies, forwarding and heals (R440–R458,
R464, R467, R722, R723). -/
namespace Sys2Proof.Machine

/-- HEAP_MAP, MARK_BASE and CARD_BASE of a context (R483). -/
def Chip.pfirst (c : Chip) (k : Nat) : Nat := c.rf (ctxReg k 0x08) 63 47
def Chip.heapCount (c : Chip) (k : Nat) : Nat := c.rf (ctxReg k 0x08) 46 30 + 1
def Chip.vbase (c : Chip) (k : Nat) : Nat := c.rf (ctxReg k 0x08) 29 0
def Chip.markBase (c : Chip) (k : Nat) : Nat := c.rf (ctxReg k 0x10) 51 16 * 2 ^ 16
def Chip.visitBase (c : Chip) (k : Nat) : Nat := c.markBase k + c.heapCount k * 16384
def Chip.cardBase (c : Chip) (k : Nat) : Nat := c.rf (ctxReg k 0x18) 51 16 * 2 ^ 16
def Chip.cardMinGen (c : Chip) (k : Nat) : Nat := c.rf (ctxReg k 0x00) 59 58
def Chip.jobEn (c : Chip) (k : Nat) : Bool := bit (c.reg (ctxReg k 0x40)) 63

/-- The heap PA of a heap VA (R440). -/
def Chip.heapPa (c : Chip) (k : Nat) (d : Datum) : Option Nat :=
  let v := d.toNat % 2 ^ 55
  let b := c.vbase k * 2 ^ 25
  if canon d ∧ b ≤ v ∧ v < b + c.heapCount k * 2 ^ 21 then some (c.pfirst k * 2 ^ 21 + (v - b)) else none
/-- The heap VA of a heap PA, as a datum in local pointer form (R440). -/
def Chip.heapVa (c : Chip) (k : Nat) (p : Nat) : Datum :=
  ((BitVec.ofNat 55 (c.vbase k * 2 ^ 25 + (p - c.pfirst k * 2 ^ 21))).signExtend 64)
/-- A PA of the heap. -/
def Chip.inHeap (c : Chip) (k : Nat) (p : Nat) : Bool :=
  decide (c.pfirst k * 2 ^ 21 ≤ p) && decide (p < (c.pfirst k + c.heapCount k) * 2 ^ 21)

/-- A pointer-class word that designates a heap object: GPTR and CODE never do (R441). -/
def Chip.heapPtr (c : Chip) (k : Nat) (w : Word) : Option Nat :=
  if c.ptr w && !c.glob w && decide (w.type ≠ 0x12) then c.heapPa k w.dat else none

/-- Region-table entries (R458), by region number PA[37:21]. -/
def Chip.regionAt (c : Chip) (r : Nat) : Nat := c.rf (sluBase + 0x900) 51 20 * 2 ^ 20 + 8 * r
/-- An entry as a Sluice engine takes it: one that reads POISON, or that lies where nothing is (R672), has a reserved STATE. -/
def Chip.rgn (c : Chip) (r : Nat) : Datum :=
  let w := c.word (c.regionAt r)
  if decide (c.region (c.regionAt r) = .dram) && !isPoison w then w.dat else dat (15 * 2 ^ 60)
def Chip.setRgn (c : Chip) (r : Nat) (d : Datum) : Chip := c.unitWrite (c.regionAt r) (.raw d)
def rgnState (d : Datum) : Nat := fld d 63 60
def rgnGen (d : Datum) : Nat := fld d 59 58
def rgnSpan (d : Datum) : Bool := bit d 53
def rgnLive (d : Datum) : Nat := fld d 50 32
def rgnEpoch (d : Datum) : Nat := fld d 31 16
/-- Change a region's STATE, and its EPOCH to the context's where the table of R460 says so. -/
def Chip.rgnTo (c : Chip) (k r st : Nat) (epoch : Bool) : Chip :=
  let d := setFld (c.rgn r) 63 60 st
  c.setRgn r (if epoch then setFld d 31 16 (c.ctxEpoch k) else d)

/-- The partition monitors' target for a context: the lowest running hart of its VMID. -/
def Chip.ctxMonitor (c : Chip) (k : Nat) : List Hart := c.monitorOf (BitVec.ofNat 12 (c.rf (ctxReg k 0) 11 0))

/-- A Sluice read that finds POISON where no thread consumes it: a machine check naming the address (R79, R36). -/
def Chip.sluicePoison (c : Chip) (k : Nat) (a : Nat) : Chip :=
  (c.log 4 8 0x4004 (dat a) (dat k)).machineCheck (c.ctxMonitor k) (dat a) 0x4004 (trigWord 4 8 0x4004)

/-- A Sluice engine reads a word of its own work (R360, R672): POISON is a machine check (R36, R79). -/
def Chip.sluRead (c : Chip) (k a : Nat) : Chip × Word :=
  let (c, w) := c.unitRead a
  (if isPoison w then c.sluicePoison k a else c, w)
/-- It reads region-table entries (R458, R672). -/
def Chip.rgnReads (c : Chip) (k : Nat) (rs : List Nat) : Chip := rs.foldl (fun (c : Chip) r => (c.sluRead k (c.regionAt r)).1) c

/-- The extent of an object (R441, R722): its words in all, and the first and number of the words the Sluice scans. -/
structure Extent where
  words : Nat
  scanAt : Nat
  scan : Nat
  deriving DecidableEq, Repr

/-- Read an object's extent from its pointer's type and, where the type calls for one, its header. -/
def Chip.extent (c : Chip) (k : Nat) (w : Word) (p : Nat) : Chip × Extent :=
  if w.type = 0x0F then (c, ⟨1, 0, 1⟩)
  else if w.type = 0x08 || !c.hdrp w then (c, ⟨2, 0, 2⟩)
  else
    let (c, h) := c.sluRead k p
    if isPoison h then (c, ⟨1, 0, 0⟩)
    else if h.type ≠ 0x10 then (c.log 4 8 0x4006 (dat p) (dat h.tag.toNat), ⟨1, 0, 0⟩)
    else
      let sub := fld h.dat 39 32
      let c := if sub ≥ 0xF2 then c.log 4 8 0x4002 (dat p) (dat sub) else c
      let scanned := decide (sub < 0xE0) || decide (sub = 0xF1) || decide (sub ≥ 0xF2)
      let n := fld h.dat 63 40
      if n ≠ 0xFFFFFF then (c, ⟨1 + n, 1, if scanned then n else 0⟩)
      else
        let (c, l) := c.unitRead (p + 8)
        if l.tag = 0 && decide (0xFFFFFF ≤ l.dat.toNat) && decide (l.dat.toNat < 2 ^ 52) then
          (c, ⟨2 + l.dat.toNat, 2, if scanned then l.dat.toNat else 0⟩)
        else (c.log 4 8 0x4006 (dat p) (dat h.tag.toNat), ⟨2, 0, 0⟩)

/-- The plane word and bit of an object (R449). -/
def Chip.planeAt (c : Chip) (k base p : Nat) : Nat × Nat :=
  let o := p - c.pfirst k * 2 ^ 21
  (base + 8 * (o / 1024), o / 16 % 64)

/-- mark(p) of R449: set the bit, and for a newly marked object add to LIVE, set SPAN (R464) and queue it. -/
def Chip.mark (c : Chip) (k : Nat) (w : Word) (p : Nat) : Chip :=
  let (a, b) := c.planeAt k (c.markBase k) p
  let (c, m) := c.sluRead k a
  if isPoison m || bit m.dat b then c
  else
    let c := c.unitWrite a ⟨m.tag, m.dat ||| dat (2 ^ b)⟩
    let (c, e) := c.extent k w p
    let r := p / 2 ^ 21
    let c := c.rgnReads k [r]
    let c := c.setRgn r (setFld (c.rgn r) 50 32 (min (rgnLive (c.rgn r) + e.words) 0x7FFFF))
    let last := (p + 8 * e.words - 1) / 2 ^ 21
    let c := if e.words > 32768 || decide (last ≠ r) then
        (List.range (last - r + 1)).foldl (fun c i =>
          if c.inHeap k ((r + i) * 2 ^ 21) then c.setRgn (r + i) (setFld (c.rgn (r + i)) 53 53 1) else c) c
      else c
    let s := c.slc k
    let o : PA × BitVec 6 := (BitVec.ofNat 52 p, w.type)
    c.setSlc k { s with queue := s.queue ++ [o], objs := s.objs ++ [o], active := true, stirred := true }

/-- Mark the card of a heap PA (R455, R456): a word that is not RAW drops the write and is counted. -/
def Chip.markCard (c : Chip) (k p : Nat) : Chip :=
  let a := c.cardBase k + (p - c.pfirst k * 2 ^ 21) / 512
  if c.region a ≠ .dram then c.unpopulated .hardware a
  else if (c.word (a / 8 * 8)).tag ≠ 0 then c.err sluBase .hardware 9 0
  else c.agentWrite [(a, 1)]

/-- No region is FREE for a copy of a generation (R723): the entry and the machine check, once while the copy waits. -/
def Chip.exhausted (c : Chip) (k : Nat) (gen : BitVec 2) : Chip :=
  if (c.slc k).stall.isSome then c
  else
    let c := c.log 4 8 0x4005 (dat k) (dat (gen.toNat + 2 ^ 8))
    let c := c.machineCheck (c.ctxMonitor k) 0 0x4005 (trigWord 4 8 0x4005)
    c.setSlc k { c.slc k with stall := some gen }
/-- What a wait keeps of an attempt that is undone: an exhaustion it found is reported (R723). -/
def Chip.keepStalls (old new : Chip) : Chip :=
  (List.range 16).foldl (fun (c : Chip) k => match (new.slc k).stall with
    | some g => c.exhausted k g
    | none => c) old

/-- A TARGET region of a generation with room, reserving a further FREE region where none has (R466, R723). -/
def Chip.targetFor (c : Chip) (k gen words : Nat) : Chip × Option Nat :=
  let s := c.slc k
  let fits := fun (t : Target) => decide (t.gen.toNat = gen) && decide (t.next + words ≤ 262144)
  match s.targets.find? fits with
  | some t => (c.setSlc k { s with targets := s.targets.map (fun u => if u = t then { u with next := u.next + words } else u) },
               some ((c.pfirst k + t.region) * 2 ^ 21 + 8 * t.next))
  | none =>
    let c := c.rgnReads k ((List.range (c.heapCount k)).map (c.pfirst k + ·))
    match (List.range (c.heapCount k)).find? (fun i => decide (rgnState (c.rgn (c.pfirst k + i)) = 0)) with
    | some i =>
      let r := c.pfirst k + i
      let c := (c.rgnTo k r 6 true)
      let c := c.setRgn r (setFld (c.rgn r) 59 58 gen)
      let c := c.log 4 8 0x4005 (dat k) (dat gen)
      (c.setSlc k { c.slc k with targets := s.targets ++ [⟨i, BitVec.ofNat 2 gen, words⟩], stall := none }, some (r * 2 ^ 21))
    | none => (c.exhausted k (BitVec.ofNat 2 gen), none)

/-- The flip or remap sweep of a context is complete (R470). -/
def Chip.flipDone (c : Chip) (k : Nat) : Bool := !bit (c.reg (ctxReg k 0x38)) 42

/-- Copy the object at p, lowest word first, and install FWD at its first word (R449, R457, R467); of a cell that is the car
(DEDUCED, log 84). -/
def Chip.copyObject (c : Chip) (k : Nat) (w : Word) (p : Nat) : Chip × Option Nat :=
  let (c, e) := c.extent k w p
  let gen := rgnGen (c.rgn (p / 2 ^ 21))
  match c.targetFor k gen e.words with
  | (c, none) => (c, none)
  | (c, some q) =>
    let card := decide (c.cardMinGen k ≠ 0) && decide (gen ≥ c.cardMinGen k)
    let c := (List.range e.words).foldl (fun c i =>
      let (c, v) := c.unitRead (p + 8 * i)
      let c := c.agentWrite (wordCells (q + 8 * i) v)
      if card && c.ptr v then c.markCard k (q + 8 * i) else c) c
    (c.agentWrite (wordCells p ⟨0x07, c.heapVa k q⟩), some q)

/-- What a heal gives: the healed word, a wait for the flip or for a region, or the failure of R450. -/
inductive Healed where
  | word (w : Word)
  | waits
  | drained (p : Nat)
  deriving DecidableEq, Repr

/-- heal(w) of R449, under the context's current epoch, phase and good colour (DEDUCED, log 35). -/
def Chip.heal (c : Chip) (k : Nat) (w : Word) : Chip × Healed :=
  let good := c.ctxGood k
  let paint := fun (w : Word) => ({ w with tag := (good.zeroExtend 8 <<< 6) ||| (w.tag &&& 0x3F) } : Word)
  let phase := c.ctxPhase k
  match c.heapPtr k w with
  | none =>
    if w.type = 0x11 && decide (phase = 1) && c.jobEn k then
      let win := (c.windowOf (BitVec.ofNat 12 (c.rf (ctxReg k 0) 11 0))).getD 0
      (c.sendRecord (w.dat.extractLsb' 46 18) (jobRecord 0x08 win (c.ctxEpoch k) (w.dat &&& 0x3FFFFFFFFFFF)),
        .word (paint w))
    else (c, .word (paint w))
  | some p =>
    let c := c.rgnReads k [p / 2 ^ 21]
    let st := rgnState (c.rgn (p / 2 ^ 21))
    let fwd : Chip × Option Nat × Bool :=
      if st = 3 ∨ st = 4 then
        let (c, h) := c.unitRead p
        if h.type = 0x07 && !isPoison h then (c, c.heapPa k h.dat, false)
        else if st = 4 then (c, none, true)
        else if !c.flipDone k || decide (phase ≠ 3) then (c, none, false)
        else let r := c.copyObject k w p; (r.1, r.2, false)
      else (c, some p, false)
    match fwd with
    | (c, none, true) => (c.log 4 8 0x4003 (dat p) (dat k), .drained p)
    | (c, none, false) => (c, .waits)
    | (c, some q, _) =>
      let c := if phase = 1 then c.mark k w q else c
      (c, .word (paint { w with dat := c.heapVa k q }))

/-- A hart adopts its context's view (R443): its sweep becomes due. -/
def Chip.adopt (c : Chip) (h : Hart) (k : Nat) : Chip :=
  let x := c.hart h
  if x.epoch.toNat = c.ctxEpoch k ∧ x.good = c.ctxGood k then c
  else c.setHart h { x with epoch := BitVec.ofNat 16 (c.ctxEpoch k), good := c.ctxGood k, sweep := true }

/-- A heal asked for by a thread (R439, R443, R448): for a thread no context collects, the word is recoloured to 0b01. -/
def healFor (h : Hart) (w : Word) : M Word := do
  let c ← get
  let x := c.hart h
  match c.ctxOf x.vmid with
  | none => pure { w with tag := 0x40 ||| (w.tag &&& 0x3F) }
  | some k =>
    set (c.pmc h 0x05 1)
    let (c, r) := (← get).heal k w
    set c
    match r with
    | .word v => set (c.adopt h k); pure v
    | .waits => throw .wait
    | .drained _ => raise { cause := cTagInvalid }

/-- The colour of a pointer-class word is not the thread's good colour (R448, R453). -/
def Chip.stale (c : Chip) (x : HartSt) (w : Word) : Bool :=
  !isPoison w && c.ptr w && decide (w.colour ≠ c.goodOf x)

end Sys2Proof.Machine
end

