-- ==== Sys2Proof/Machine/Xlate.lean ====
section
/-! DEFINITION. Address translation (R317–R350): the walk, permissions, accessed and dirty bits, cached translations,
and what an untranslated or translated address reaches. -/
namespace Sys2Proof.Machine

/-- What an access is to the memory it reaches: a fetch, a whole-word load or store (LDW, STW), LDD or STD, a sub-word
access, maintenance by address, or any other (R332, R333, R399, R671). -/
inductive Way where
  | fetch | word | raw | sub | maint | other
  deriving DecidableEq, Repr

/-- An access: its kind code (R286), whether it stores, and its way. -/
structure Acc' where
  kind : Nat
  st : Bool
  way : Way
  deriving DecidableEq, Repr

/-- Who translates: the owner of its cached translations (a core, or 512 + m for the Stope units of controller m), the
hart for whose reservation the updates do not count, and the address reported. -/
structure Walker where
  owner : Nat
  hart : Option Hart
  va : Datum
  kind : Nat
  deriving DecidableEq, Repr

/-- A translation fault (R275, R324). -/
def xfault (k : Walker) (cause stage level : Nat) (ipa : Option Datum) : Trap :=
  { cause := cause, addr := k.va, access := k.kind, stage := stage, level := level, ipa := ipa }

/-- S2_FAULT_IPA as a stage-2 fault would record it (R324). -/
def s2ipa (walkflag : Bool) (ipa : Nat) : Option Datum := some (dat (b2n walkflag * 2 ^ 63 + ipa % 2 ^ 52))

/-- CONTIG of a leaf, and the FRAME it gives an address (R329, R350). -/
def contig (e : Datum) : Nat := fld e 54 53
def frameOf (e : Datum) (a : Nat) : Nat :=
  let f := fld e 51 16
  let n := if contig e = 1 then 16 else if contig e = 2 then 512 else 1
  f / n * n + a / 2 ^ 16 % n

/-- A valid leaf (R330). `st2` is stage 2; `hreg` the H regime. -/
def Chip.leafOk (c : Chip) (e : Datum) (st2 : Bool) : Bool :=
  bit e 0 && !bit e 1 && decide (contig e ≠ 3)
    && (st2 || !bit e 55 ||
        (decide (fld e 61 56 ≠ 0x07) && bit (c.row (BitVec.ofNat 6 (fld e 61 56))) 6 && !bit e 14 && !bit e 52))
    && (st2 || !(bit e 52 && bit e 14))

/-- A valid table entry (R328). -/
def tableOk (e : Datum) : Bool := bit e 0 && !bit e 1 && decide (fld e 63 52 = 0) && decide (fld e 15 6 = 0)

/-- The conditions of the Permissions table for a leaf (R332). -/
def permits (e : Datum) (acc : Acc') (priv : Nat) (st2 : Bool) : Bool :=
  let r := bit e 6; let w := bit e 7; let x := bit e 8
  let shadow := bit e 52 && !st2
  let dev := bit e 14
  let side := bit e 15
  let below := decide (priv ≠ 3)
  let who := st2 || priv = 3 || (if priv = 0 then bit e 9 else bit e 10)
  let devOk := !dev || acc.way = .raw || acc.way = .maint
  if acc.kind = 5 then (if st2 then w else bit e 52 && bit e 9) && devOk
  else if acc.kind = 6 then (if st2 then r else bit e 52 && bit e 9) && devOk
  else if acc.kind = 1 then who && x && !dev && !side && !shadow
  else if acc.kind = 4 then who && r && w && !(shadow && below) && !dev
  else if acc.st then who && w && !(shadow && below) && devOk
  else who && r && devOk

/-- The tags under which a table entry is cached (R342, R344): the H regime, or the partition with, at stage 1, the ASID. -/
def tableTag (owner : Nat) (r : Regime) (stage lv a : Nat) : TableEntry :=
  { owner := owner, hreg := decide (r.priv = 3), stage := stage, level := lv,
    vmid := if r.priv = 3 then 0 else r.vmid.extractLsb' 0 12,
    asid := if r.priv = 3 || stage = 2 then 0 else r.asid.extractLsb' 0 16,
    xlat := r.xlat.extractLsb' 0 3, pre := a / 2 ^ (42 - 13 * lv), e := 0, at_ := 0 }
/-- A cached table entry has the tags of another. -/
def TableEntry.like (t u : TableEntry) : Bool := decide ({ t with e := u.e, at_ := u.at_ } = u)
/-- Hold a table entry. -/
def Chip.keepTable (c : Chip) (t : TableEntry) : Chip := { c with tables := c.tables.filter (fun u => !u.like t) ++ [t] }

/-- Read the entry at `ea` of a walk at a level (R327, R328, R330): `via` gives its PA and whether a DEVICE leaf covers it.
A valid table entry, and a stage-2 leaf, is kept (R346) (DESIGN CHOICE, log 36). -/
def readEntry (k : Walker) (r : Regime) (a stage lv : Nat) (ipa : Option Datum) (via : Nat → M (Nat × Bool)) (ea : Nat) :
    M (Datum × Nat) := do
  let (p, dev) ← via ea
  let c ← get
  match c.region p with
  | .regs | .host | .aperture | .boot => raise (xfault k cWalkDev stage lv ipa)
  | .empty =>
    set (c.unpopulated (match k.hart with | some h => .thread h | none => .hardware) p)
    raise { cause := cPoison, addr := k.va, access := k.kind }
  | .dram =>
    need (!dev) (xfault k cWalkDev stage lv ipa)
    set (c.agentRead (p / 64) true)
    let c ← get
    let w := c.word p
    need (!isPoison w) { cause := cPoison, addr := k.va, access := k.kind }
    need (decide (w.tag = 0) && (if lv = 2 then c.leafOk w.dat (decide (stage = 2)) else tableOk w.dat)) (xfault k cTransl stage lv ipa)
    if lv = 2 && stage = 1 then pure ()
    else set (c.keepTable { tableTag k.owner r stage lv a with e := w.dat, at_ := BitVec.ofNat 52 p })
    pure (w.dat, p)

/-- The three-level walk from a table root (R327): each level from a cached table entry, freely where `cached`, or from memory.
Gives the leaf, its PA and its address before `via`. -/
def walkFrom (k : Walker) (r : Regime) (cached : Bool) (root a stage : Nat) (ipa : Option Datum) (via : Nat → M (Nat × Bool)) :
    List Nat → M (Datum × Nat × Nat)
  | [] => raise (xfault k cTransl stage 0 ipa)
  | lv :: rest => do
    let ea := root * 2 ^ 16 + 8 * (a / 2 ^ (42 - 13 * lv) % 8192)
    let c ← get
    let hit := if cached then c.tables.find? (fun t => t.like (tableTag k.owner r stage lv a)) else none
    let (e, p) ← (match hit with
      | some t => do
        set c.tick
        if Config.freeBit c.fresh then pure (t.e, t.at_.toNat) else readEntry k r a stage lv ipa via ea
      | none => readEntry k r a stage lv ipa via ea)
    match rest with
    | [] => pure (e, p, ea)
    | _ => walkFrom k r cached (fld e 51 16) a stage ipa via rest

/-- A leaf with ACCESSED, and DIRTY where asked, set. -/
def marked (e : Datum) (dirty : Bool) : Datum := e ||| dat (2 ^ 12) ||| (if dirty then dat (2 ^ 13) else 0)

/-- Set ACCESSED, and DIRTY for a store, in a leaf as memory holds it, by an atomic compare-and-write of the whole word: false
where the word has changed, and nothing is written (R339). -/
def touchLeaf (k : Walker) (p : Nat) (e : Datum) (dirty : Bool) : M Bool := do
  let n := marked e dirty
  if n = e then pure true
  else do
    let c ← get
    if c.word p = .raw e then do
      set (c.agentWrite (wordCells p (.raw n)) k.hart)
      modify (fun c => { c with tables := c.tables.map (fun t => if t.at_.toNat = p && t.e = e then { t with e := n } else t) })
      pure true
    else do
      set { c with tables := c.tables.filter (fun t => decide (t.at_.toNat ≠ p)) }
      pure false

/-- Stage 2 of an IPA (R327): the PA, the leaf and the leaf's PA. -/
def stage2 (k : Walker) (r : Regime) (cached : Bool) (acc : Acc') (walkflag : Bool) (ipa : Nat) : M (Nat × Option Datum × Nat) := do
  if !bit r.xlat 1 then pure (ipa, none, 0)
  else
    let (e, p, _) ← walkFrom k r cached (fld r.vmid 51 16) ipa 2 (s2ipa walkflag ipa) (fun ea => pure (ea, false)) [0, 1, 2]
    need (permits e acc 1 true) (xfault k cPerm 2 2 (s2ipa walkflag ipa))
    pure (frameOf e ipa * 2 ^ 16 + ipa % 2 ^ 16, some e, p)

/-- The PA of a stage-1 table entry: through stage 2 as a table read, which needs R; a DEVICE leaf there is WALK_DEVICE (R327),
and ACCESSED is set in the leaf used, after a second walk where it has changed (R339). -/
def tableVia (k : Walker) (r : Regime) (cached : Bool) (ea : Nat) : M (Nat × Bool) := do
  if !bit r.xlat 1 then pure (ea, false)
  else
    let leaf := fun (cached : Bool) => do
      let x ← walkFrom k r cached (fld r.vmid 51 16) ea 2 (s2ipa true ea) (fun x => pure (x, false)) [0, 1, 2]
      need (bit x.1 6) (xfault k cPerm 2 2 (s2ipa true ea))
      let ok ← (if bit x.1 14 then pure true else touchLeaf k x.2.1 x.1 false)
      pure (ok, x.1)
    let (ok, e) ← leaf cached
    let e ← (if ok then pure e else do let (_, e) ← leaf false; pure e)
    if bit e 14 then pure (0, true) else pure (frameOf e ea * 2 ^ 16 + ea % 2 ^ 16, false)

/-- Update ACCESSED or DIRTY of a stage-1 leaf: a store to the entry's IPA through its stage-2 leaf (R340). -/
def touchLeaf1 (k : Walker) (r : Regime) (ea p : Nat) (e : Datum) (dirty : Bool) : M Bool := do
  if marked e dirty = e then pure true
  else if (← get).word p ≠ .raw e then touchLeaf k p e dirty
  else
    let ok ← (if r.priv ≠ 3 && bit r.xlat 1 then do
        let (_, l2, at2) ← stage2 k r false ⟨3, true, .other⟩ true ea
        match l2 with
        | some e2 => touchLeaf k at2 e2 true
        | none => pure true
      else pure true)
    if ok then touchLeaf k p e dirty else pure false

/-- The device ranges of an untranslated access (R326). -/
def Chip.devRange (c : Chip) (p : Nat) : Bool := c.region p = .regs || c.region p = .host

/-- A shadow push or compare needs SHADOW = 1 at stage 1, which no leaf gives where stage 1 is off (R326, R332)
(DEDUCED, log 36). -/
def noShadow (acc : Acc') : Bool := decide (acc.kind ≠ 5) && decide (acc.kind ≠ 6)

/-- An address that passes through no enabled stage (R326). -/
def flat (k : Walker) (acc : Acc') (a : Nat) : M Xl := do
  need (decide (a < 2 ^ 52)) (xfault k cTransl 1 0 none)
  let dev := (← get).devRange a
  need ((!dev || acc.way = .raw || acc.way = .maint) && noShadow acc) (xfault k cPerm 1 2 none)
  pure { pa := a, device := dev }

/-- The cached translation of an address in a regime (R342) (DESIGN CHOICE, log 36). -/
def Chip.tlbFind (c : Chip) (owner : Nat) (r : Regime) (a : Nat) : Option TlbEntry :=
  let en : BitVec 3 := r.xlat.extractLsb' 0 3
  c.tlb.find? (fun t => decide (t.owner = owner) && decide (t.xlat = en) &&
    (if r.priv = 3 then t.hreg else !t.hreg && decide (t.vmid = r.vmid.extractLsb' 0 12)
      && (t.glob || decide (t.asid = r.asid.extractLsb' 0 16))) &&
    (let n := match t.leaf1, t.leaf2 with
       | some e, none => if contig e = 1 then 16 else if contig e = 2 then 512 else 1
       | none, some e => if contig e = 1 then 16 else if contig e = 2 then 512 else 1
       | _, _ => 1
     decide (t.page / n = a / 2 ^ 16 / n)))

/-- The translation that leaves give an address, refused by no check here; GEN is ignored in the H regime (R330). -/
def Chip.combine (c : Chip) (hreg : Bool) (l1 l2 : Option Datum) (at1 at2 ipa1 a : Nat) : Xl :=
  let ipa := match l1 with | some e => frameOf e a * 2 ^ 16 + a % 2 ^ 16 | none => a
  let pa := match l2 with | some e => frameOf e ipa * 2 ^ 16 + ipa % 2 ^ 16 | none => ipa
  let b := fun (l : Option Datum) i => match l with | some e => bit e i | none => false
  { pa := pa
    mono := match l1 with | some e => if bit e 55 then some (BitVec.ofNat 6 (fld e 61 56)) else none | none => none
    device := b l1 14 || b l2 14 || (l1.isNone && l2.isNone && c.devRange pa)
    side := b l1 15 || b l2 15
    attr1 := b l1 14 || b l1 15
    gen := match l1 with | some e => if hreg then 0 else fld e 63 62 | none => 0
    w := match l1 with | some e => bit e 7 | none => true
    leaf1 := l1, leaf2 := l2, at1 := at1, at2 := at2, ipa1 := ipa1 }

/-- The walk of R327 without a cached translation of the address, each leaf checked as it is found; `cached` lets it use cached
table entries. -/
def walkVia (k : Walker) (r : Regime) (acc : Acc') (a : Nat) (cached : Bool) : M Xl := do
  let priv := r.priv.toNat
  if priv = 3 then
    if !bit r.xlat 2 then flat k acc (a % 2 ^ 55)
    else
      let (e, p, ea) ← walkFrom k r cached (fld r.htroot 51 16) a 1 none (fun ea => pure (ea, false)) [0, 1, 2]
      need (permits e acc 3 false) (xfault k cPerm 1 2 none)
      pure ((← get).combine true (some e) none p 0 ea a)
  else if bit r.xlat 0 then
    let (e, p, ea) ← walkFrom k r cached (fld r.asid 51 16) a 1 none (tableVia k r cached) [0, 1, 2]
    need (permits e acc priv false) (xfault k cPerm 1 2 none)
    let (_, l2, at2) ← stage2 k r cached acc false (frameOf e a * 2 ^ 16 + a % 2 ^ 16)
    pure ((← get).combine false (some e) l2 p at2 ea a)
  else if bit r.xlat 1 then
    need (decide (a < 2 ^ 52)) (xfault k cTransl 1 0 none)
    need (noShadow acc) (xfault k cPerm 1 2 none)
    let (_, l2, at2) ← stage2 k r cached acc false a
    pure ((← get).combine false none l2 0 at2 0 a)
  else flat k acc a

/-- The walk of R327. A fault met through a cached table entry is raised only where a walk without them meets it too (R346). -/
def walkFresh (k : Walker) (r : Regime) (acc : Acc') (a : Nat) : M Xl := do
  if (← get).tables.isEmpty then walkVia k r acc a false
  else tryCatch (walkVia k r acc a true) (fun e => match e with
    | .trap t =>
      if t.cause = cTransl || t.cause = cPerm || t.cause = cWalkDev then do
        modify (fun c => { c with tables := c.tables.filter (fun t => decide (t.owner ≠ k.owner)) })
        walkVia k r acc a false
      else throw (.trap t)
    | e => throw e)

/-- The leaves of a cached translation permit an access. -/
def cachedPermits (t : TlbEntry) (acc : Acc') (priv : Nat) : Bool :=
  (match t.leaf1 with | some e => permits e acc priv false | none => noShadow acc) &&
  (match t.leaf2 with | some e => permits e acc 1 true | none => true)

/-- Where an access may reach, whatever the leaves grant (R333, R399, R671). -/
def Chip.reachOk (c : Chip) (r : Regime) (acc : Acc') (x : Xl) : Bool :=
  match c.region x.pa with
  | .aperture => decide (r.priv = 3) && (acc.way = .word || acc.way = .raw || acc.way = .sub || acc.way = .maint)
  | .regs | .host => x.device && (acc.way = .raw || acc.way = .maint)
  | .boot => decide (r.priv = 3) && acc.way = .raw && !acc.st
  | _ => true
/-- An access that may not reach its address faults PERMISSION (R333, R399, R671). -/
def reachCheck (k : Walker) (r : Regime) (acc : Acc') (x : Xl) : M Unit := do
  need ((← get).reachOk r acc x) (xfault k cPerm 1 2 none)

/-- A leaf in which a store would set DIRTY is as memory holds it; else the module walks again (R339). -/
def Chip.leafFresh (c : Chip) (l : Option Datum) (at_ : Nat) : Bool :=
  match l with
  | some e => bit e 13 || decide (c.word at_ = .raw e)
  | none => true

/-- The cached translation an access uses: freely, where it permits the access (R346, R348) (DESIGN CHOICE, log 36). -/
def Chip.tlbUse (c : Chip) (t : TlbEntry) (r : Regime) (acc : Acc') (a : Nat) : Option Xl :=
  let x := c.combine t.hreg t.leaf1 t.leaf2 t.addr1.toNat t.addr2.toNat t.ipa a
  if Config.freeBit c.fresh && cachedPermits t acc r.priv.toNat && c.reachOk r acc x
    && (!acc.st || (c.leafFresh x.leaf1 x.at1 && c.leafFresh x.leaf2 x.at2)) then some x else none

/-- ACCESSED, or DIRTY, is set in the leaves used (R339, R340): false where one has changed. -/
def touchBoth (k : Walker) (r : Regime) (x : Xl) (dirty : Bool) : M Bool := do
  let ok ← (match x.leaf1 with
    | some e => if dirty && bit e 13 then pure true else touchLeaf1 k r x.ipa1 x.at1 e dirty
    | none => pure true)
  if !ok then pure false
  else match x.leaf2 with
    | some e => if dirty && bit e 13 then pure true else touchLeaf k x.at2 e dirty
    | none => pure true

/-- ACCESSED is set in the leaves of a walk, which is made again while one has changed since it was read (R339). -/
def settleLeaves (k : Walker) (r : Regime) (acc : Acc') (a : Nat) : Nat → Xl → M Xl
  | 0, x => pure x
  | n + 1, x => do
    if ← touchBoth k r x false then pure x
    else
      let y ← walkVia k r acc a false
      reachCheck k r acc y
      settleLeaves k r acc a n y

/-- Translate an address for an access (R317, R327, R342, R346, R348): a cached translation is used or not, freely; before a
fault through one, the module walks again. ACCESSED is set in the leaves used, and an update of DIRTY that stage 2 refuses
faults here (R340) (DESIGN CHOICE, log 36). -/
def translate (k : Walker) (r : Regime) (acc : Acc') : M Xl := do
  need (canon k.va) (xfault k cTransl 1 0 none)
  let a := k.va.toNat % 2 ^ 55
  let c ← get
  let x ← (match c.tlbFind k.owner r a with
    | some t => (match c.tlbUse t r acc a with
      | some x => do
        set c.tick
        pure x
      | none => do
        set { c.tick with tlb := c.tlb.filter (fun u => decide (u ≠ t)) }
        walkFresh k r acc a)
    | none => walkFresh k r acc a)
  reachCheck k r acc x
  let x ← settleLeaves k r acc a 4 x
  if acc.st && r.priv ≠ 3 && bit r.xlat 1 && x.leaf1.any (fun e => !bit e 13) then do
    let _ ← stage2 k r false ⟨3, true, .other⟩ true x.ipa1
    pure ()
  else pure ()
  if x.leaf1.isNone && x.leaf2.isNone then pure x
  else do
    let set12 := fun (l : Option Datum) => l.map (fun e => marked e false)
    let t : TlbEntry :=
      { owner := k.owner, hreg := decide (r.priv = 3), vmid := r.vmid.extractLsb' 0 12, asid := r.asid.extractLsb' 0 16,
        glob := match x.leaf1 with | some e => bit e 11 && decide (r.priv ≠ 3) | none => false
        xlat := r.xlat.extractLsb' 0 3, page := a / 2 ^ 16, leaf1 := set12 x.leaf1, leaf2 := set12 x.leaf2,
        addr1 := BitVec.ofNat 52 x.at1, addr2 := BitVec.ofNat 52 x.at2, ipa := x.ipa1 }
    modify (fun c => { c with tlb := c.tlb.filter (fun u => !(decide (u.owner = t.owner) && decide (u.hreg = t.hreg)
      && decide (u.vmid = t.vmid) && decide (u.asid = t.asid) && decide (u.xlat = t.xlat) && decide (u.page = t.page))) ++ [t] })
    pure { x with leaf1 := t.leaf1, leaf2 := t.leaf2 }

/-- Before a store through leaves with DIRTY = 0 becomes visible, DIRTY is set in them (R339, R340). -/
def setDirtyBits (k : Walker) (r : Regime) (x : Xl) : M Unit := do
  let _ ← touchBoth k r x true
  if x.leaf1.isNone && x.leaf2.isNone then pure ()
  else
    let d := fun (l : Option Datum) => l.map (fun e => e ||| dat (2 ^ 13))
    modify (fun c => { c with tlb := c.tlb.map (fun t =>
      if decide (t.owner = k.owner) && decide (t.addr1 = BitVec.ofNat 52 x.at1) && decide (t.addr2 = BitVec.ofNat 52 x.at2)
        && decide (t.page = k.va.toNat % 2 ^ 55 / 2 ^ 16)
      then { t with leaf1 := d t.leaf1, leaf2 := d t.leaf2 } else t) })

end Sys2Proof.Machine
end

