-- ==== Sys2Proof/Machine/Access.lean ====
section
/-! DEFINITION. A thread's accesses of words: the store buffer (R361–R364), loads through the load barrier (R448) and the
well-formed check (R54), stores with the card barrier (R455), and deferred store errors (R270, R274). -/
namespace Sys2Proof.Machine

/-- Raise DEFERRED_STORE_ERROR at a hart (R274, R286): one report is held, later ones are counted and logged
(DEDUCED, log 31). -/
def Chip.raiseDse (c : Chip) (h : Hart) (addr : Datum) (source entry priv : Nat) : Chip :=
  let x := c.hart h
  match x.dse with
  | none => c.setHart h { x with dse := some ⟨addr, BitVec.ofNat 16 (entry + source * 2 ^ 5 + priv * 2 ^ 8)⟩ }
  | some d =>
    let lost := min (d.detail.toNat / 2 ^ 10 + 1) 63
    let d' : PendEsc := { d with detail := BitVec.ofNat 16 (d.detail.toNat % 2 ^ 10 + lost * 2 ^ 10) }
    (c.setHart h { x with dse := some d' }).log 0 h.toNat 0x2006 addr (dat d'.detail.toNat)

/-- The key of a card byte in a store buffer entry: it is written once the entry's stores are performed (R455). -/
def cardKey (a : Nat) : Nat := 2 ^ 53 + a

/-- A card byte is written: only in a RAW word of DRAM (R456). The write is the module's: it takes away every reservation on the
card's line, the storing thread's too (R165) (DESIGN CHOICE, log 72). -/
def Chip.writeCard (c : Chip) (a : Nat) : Chip :=
  if c.region a ≠ .dram then c.unpopulated .hardware a
  else if (c.word (a / 8 * 8)).tag ≠ 0 then c.err sluBase .hardware 9 0
  else c.agentWrite [(a, 1)]

/-- A store buffer entry leaves into L1 (R364); a miss prefetches where its page allows it (R355). -/
def Chip.acceptEntry (c : Chip) (e : SbEntry) : Chip :=
  let c := { c with sb := c.sb.filter (fun f => decide (f ≠ e)) }
  let c := c.coreWrite e.hart (e.writes.filter (fun w => decide (w.1 < 2 ^ 53))) e.plain
  (e.writes.filter (fun w => decide (w.1 ≥ 2 ^ 53))).foldl (fun c w => c.writeCard (w.1 - 2 ^ 53)) c

/-- Every older store of a thread is accepted (R271) (DESIGN CHOICE, log 29). -/
def Chip.drain (c : Chip) (h : Hart) : Chip := (c.sb.filter (fun e => decide (e.hart = h))).foldl Chip.acceptEntry c

/-- No later store merges into a thread's present entries (R362). -/
def Chip.closeSb (c : Chip) (h : Hart) : Chip :=
  { c with sb := c.sb.map (fun e => if e.hart = h then { e with closed := true } else e) }

/-- The entries of a core. -/
def Chip.sbOf (c : Chip) (h : Hart) : List SbEntry := c.sb.filter (fun e => decide (e.core = coreOf h))
/-- The youngest entry of a thread for a line, where a store may still merge into it (R362). -/
def Chip.mergeable (c : Chip) (h : Hart) (line : Nat) : Option SbEntry :=
  ((c.sb.filter (fun e => decide (e.hart = h) && decide (e.line = line))).getLast?).filter (fun e => !e.closed)
/-- A free entry of the core: with none, the core's oldest is accepted first; then the lowest (R361) (DESIGN CHOICE, log 29). -/
def Chip.freeSlot (c : Chip) (h : Hart) : Chip × Nat :=
  let c := if (c.sbOf h).length < 32 then c else
    match c.sbOf h with
    | e :: _ => c.acceptEntry e
    | [] => c
  (c, ((List.range 32).find? (fun i => !(c.sbOf h).any (fun e => decide (e.slot = i)))).getD 0)

/-- Put a store in the store buffer (R361, R362). -/
def Chip.pushStore (c : Chip) (h : Hart) (va : Datum) (priv line : Nat) (plain : Bool) (cells : List Host.Cell) : Chip :=
  match c.mergeable h line with
  | some e => { c with sb := c.sb.map (fun f => if f = e then
      { f with writes := f.writes ++ cells, stores := f.stores + 1, plain := f.plain && plain } else f) }
  | none =>
    let (c, slot) := c.freeSlot h
    { c with sb := c.sb ++ [{ core := coreOf h, slot := slot, hart := h, line := line, va := va, priv := BitVec.ofNat 2 priv,
                              closed := false, writes := cells, stores := 1, plain := plain }] }

/-- A store that leaves its store buffer entry for an address where nothing takes it is lost (R571, R672): the report names the
entry that held it (R286). -/
def Chip.loseStore (c : Chip) (h : Hart) (va : Datum) (line priv : Nat) : Chip :=
  match c.mergeable h line with
  | some e => c.raiseDse h va 0 e.slot priv
  | none => let (c, slot) := c.freeSlot h; c.raiseDse h va 0 slot priv

/-- The word at a datum PA as a thread reads it: its own youngest buffered stores over memory (R363). -/
def Chip.seenWord (c : Chip) (h : Hart) (p : Nat) : Word :=
  let w := c.word p
  let ws := ((c.sb.filter (fun e => decide (e.hart = h) && decide (e.line = p / 64))).flatMap (fun e => e.writes)).reverse
  if ws.isEmpty then w
  else
    let b := fun i => ((ws.lookup (p + i)).getD (w.dat.extractLsb' (8 * i) 8)).toNat
    ⟨(ws.lookup (tagBase + p / 8)).getD w.tag,
     dat ((List.range 8).foldr (fun i a => b i + 256 * a) 0)⟩

/-- A translation request of a hart. -/
def walkerOf (h : Hart) (va : Datum) (kind : Nat) : Walker := ⟨(coreOf h).toNat, some h, va, kind⟩

/-- The word at an 8-aligned address of DRAM, of the tag aperture (R399), or of nowhere, which delivers POISON (R672). A
DEVICE access goes past the caches (R370); a monotype page needs no tag (R335). -/
def readAt (h : Hart) (x : Xl) : M Word := do
  let p := x.pa / 8 * 8
  let c ← get
  match c.region p with
  | .dram =>
    set (if x.device then c.agentRead (p / 64) true else c.coreRead h .l1d p x.mono.isNone (!x.side))
    let w := (← get).seenWord h p
    pure (match x.mono with
      | some t => if isPoison w then w else ⟨t.zeroExtend 8, w.dat⟩
      | none => w)
  | .aperture =>
    set (c.agentRead (lineOfKey p) true)
    let c ← get
    pure (.raw (dat (ofBytes ((List.range 8).map (fun i => (c.word ((p - tagBase + i) * 8)).tag)))))
  | _ =>
    set (c.unpopulated (.thread h) p)
    pure ⟨poisonTag, 0⟩

/-- The healed word written back at the address it was read from: one compare-and-write at memory, only where the word is
still there and the thread's leaf has W (R451). -/
def writeBack (h : Hart) (x : Xl) (w v : Word) : M Unit := do
  let c ← get
  let p := x.pa / 8 * 8
  if x.w && decide (c.region p = .dram) && decide (c.word p = w) then
    set (c.agentWrite (wordCells p v) (some h))
  else pure ()

/-- The load barrier of R448, which a shadow-stack access does not pass (R446), and the well-formed check of R54. -/
def deliver (h : Hart) (x : Xl) (va : Datum) (kind : Nat) (w : Word) : M Word := do
  let c ← get
  let v ← (if x.mono.isNone && decide (kind ≠ 6) && c.stale (c.hart h) w then do
      let v ← tryCatch (healFor h w) (fun e => match e with
        | .trap t => throw (.trap { t with addr := va, access := kind })
        | e => throw e)
      if v ≠ w then writeBack h x w v else pure ()
      pure v
    else pure w)
  need ((← get).wellFormed v) { cause := cTagInvalid, addr := va, access := kind }
  pure v

/-- Load the word at an address as `LDW` does (R158), in a regime; `carry` moves POISON without a trap (R79, R102). -/
def loadWordIn (h : Hart) (r : Regime) (va : Datum) (kind : Nat) (way : Way) (carry : Bool) : M (Word × Xl) := do
  need (decide (va.toNat % 8 = 0)) { cause := cAlign, addr := va, access := kind }
  let x ← translate (walkerOf h va kind) r ⟨kind, false, way⟩
  let w ← readAt h x
  if isPoison w then
    if carry then pure (w, x) else raise { cause := cPoison, addr := va, access := kind }
  else
    let v ← deliver h x va kind w
    pure (v, x)

/-- Load a word in the hart's own regime. -/
def loadWord (h : Hart) (va : Datum) (kind : Nat := 2) (way : Way := .other) (carry : Bool := false) : M Word := do
  let r := (← hartM h).regime
  let (w, _) ← loadWordIn h r va kind way carry
  pure w

/-- The card to mark for a store of a word to a PA by a thread (R455). -/
def Chip.cardFor (c : Chip) (vmid : BitVec 12) (x : Xl) (w : Word) : Option Nat :=
  match c.ctxOf vmid with
  | some k =>
    let g := c.cardMinGen k
    if g ≠ 0 && c.ptr w && !isPoison w && c.inHeap k x.pa && decide (x.gen ≥ g) then
      some (c.cardBase k + (x.pa - c.pfirst k * 2 ^ 21) / 512)
    else none
  | none => none

/-- Store datum bytes of a monotype page: no tag, but a poisoned word takes MTYPE from a tagged store (R335, R424). -/
def storeCells (c : Chip) (h : Hart) (x : Xl) (w : Word) : List Host.Cell :=
  let p := x.pa / 8 * 8
  match x.mono with
  | some t =>
    if isPoison (c.seenWord h p) then wordCells p ⟨t.zeroExtend 8, w.dat⟩ else byteCells p (bytesOf 8 w.dat.toNat)
  | none => wordCells p w

/-- Bytes written to the tag aperture: 0xDF is counted and leaves its tag, as does a poisoned word (R401). -/
def Chip.apertureBytes (c : Chip) (h : Hart) (p : Nat) (l : List Byte) : Chip :=
  let word := fun (i : Nat) => (p - tagBase + i) * 8
  let c := (c.recall (lineOfKey p)).readTags (lineOfKey p)
  let c := (l.zipIdx.filter (fun e => decide (e.1 = poisonTag))).foldl
    (fun (c : Chip) (e : Byte × Nat) => c.err (memPage (ctlOf (word e.2))) (.thread h) 9 0) c
  c.agentWrite ((l.zipIdx.filter (fun e => decide (e.1 ≠ poisonTag) && !isPoison (c.word (word e.2)))).map
    (fun e => (p + e.2, e.1))) (some h)

/-- Perform a checked store of a whole word. -/
def putWord (h : Hart) (r : Regime) (x : Xl) (va : Datum) (kind : Nat) (w : Word) : M Unit := do
  let p := x.pa / 8 * 8
  if (← get).region p ≠ .empty then setDirtyBits (walkerOf h va kind) r x else pure ()
  let c ← get
  match c.region p with
  | .dram =>
    let card := match x.mono, c.cardFor ((c.hart h).vmid) x w with
      | none, some a => [(cardKey a, (1 : Byte))]
      | _, _ => []
    set (c.pushStore h va r.priv.toNat (p / 64) (!x.side) (storeCells c h x w ++ card))
  | .aperture => set (c.apertureBytes h p (bytesOf 8 w.dat.toNat))
  | _ => set ((c.unpopulated (.thread h) p).loseStore h va (p / 64) r.priv.toNat)

/-- Which words a tagged store takes: those an instruction may produce (R55, R56), POISON too (R79, R102), or any, as a frame
push stores a landing (R284). -/
inductive Takes where
  | producible | poison | any
  deriving DecidableEq, Repr
/-- The word is one the store takes. -/
def Takes.ok (t : Takes) (c : Chip) (w : Word) : Bool :=
  match t with
  | .producible => c.producible w
  | .poison => isPoison w || c.producible w
  | .any => true

/-- The first two checks of a tagged store (R81): alignment and translation. -/
def checkPlace (h : Hart) (r : Regime) (va : Datum) (kind : Nat) (way : Way) : M Xl := do
  need (decide (va.toNat % 8 = 0)) { cause := cAlign, addr := va, access := kind }
  translate (walkerOf h va kind) r ⟨kind, true, way⟩
/-- The word stored (R55, R56). -/
def checkTakes (va : Datum) (w : Word) (kind : Nat) (takes : Takes) : M Unit := do
  need (takes.ok (← get) w) { cause := cTagInvalid, addr := va, access := kind }
/-- The page of a tagged store (R335, R399): a poisoned word through a MONOTYPE leaf differs from MTYPE, and traps also where
the store carries POISON (DESIGN CHOICE, log 74). -/
def checkMono (va : Datum) (w : Word) (kind : Nat) (x : Xl) : M Unit := do
  let mono := { cause := cMono, addr := va, access := kind : Trap }
  match x.mono with
  | some t => need (decide (w.type = t)) mono
  | none => pure ()
  if (← get).region x.pa = .aperture then need (decide (w.tag = 0)) mono else pure ()

/-- The checks of a tagged store (R158, R81): alignment, translation, the word stored, the monotype page. -/
def checkStore (h : Hart) (r : Regime) (va : Datum) (w : Word) (kind : Nat) (way : Way) (takes : Takes) : M Xl := do
  let x ← checkPlace h r va kind way
  checkTakes va w kind takes
  checkMono va w kind x
  pure x

/-- Store a word at an address as `STW` does, in a regime. -/
def storeWordIn (h : Hart) (r : Regime) (va : Datum) (w : Word) (kind : Nat) (way : Way) (takes : Takes) : M Unit := do
  let x ← checkStore h r va w kind way takes
  putWord h r x va kind w

/-- Store a word in the hart's own regime. -/
def storeWord (h : Hart) (va : Datum) (w : Word) (kind : Nat := 3) (way : Way := .other) (takes : Takes := .producible) :
    M Unit := do
  let r := (← hartM h).regime
  storeWordIn h r va w kind way takes

end Sys2Proof.Machine
end

