-- ==== Sys2Proof/Machine/Operands.lean ====
section
/-! DEFINITION. Operands of a thread's instructions: lazy group loads (R126–R128), source registers healed in place
(R453), destination registers (R85, R87), and decode-time checks (R86, R140, R143). -/
namespace Sys2Proof.Machine

/-- The registers of a context group in order (R115): physical registers for the window and the globals, special-register
numbers offset by 1000 elsewhere. -/
def groupRegs (cwp g : Nat) : List Nat :=
  (List.range 8).map (fun i =>
    if g = 0 then 384 + i else if g = 1 then 392 + i
    else if g = 2 then 24 * cwp + i else if g = 3 then 24 * cwp + 8 + i else if g = 4 then 24 * cwp + 16 + i
    else if g = 5 then (24 * cwp + 24 + i) % 384
    else if g = 6 then 1000 + 0x40 + i else if g = 7 then 1000 + 0x48 + i else 1000 + 8 * (g - 8) + i)

/-- A special register that holds a whole word (R132): SYS_RET_PC, LONG_A, LONG_B, BS0, BS1, CAGE_RES. -/
def wholeWordSpr (n : Nat) : Bool :=
  [0x00B, 0x012, 0x013, 0x019, 0x01A, 0x122].contains n

/-- The word a member of a context group holds: SP and TP lie with the registers, RLINK with the ring. -/
def HartSt.groupGet (x : HartSt) (i : Nat) : Word :=
  if i < 1000 then x.preg i
  else if i = 1001 then x.preg 416
  else if i = 1002 then x.preg 417
  else if i = 1000 + 0x4D then x.preg (400 + x.cwp)
  else x.sprW (i - 1000)
/-- The bits a context special register has: reserved bits read zero, and so does an unassigned number (R13, R132). -/
def sprHeld (n : Nat) (d : Datum) : Datum :=
  if n = 0x000 then d &&& 0xFF
  else if n = 0x006 then d &&& 0xFFFF
  else if n = 0x007 then d &&& 0xFFFFFFFFFFFFF
  else if n ≤ 0x00C then d
  else if n ≤ 0x00F then d &&& 0x1F
  else if n = 0x010 then d &&& 0xFFFFFFFF
  else if n = 0x011 then d &&& 0xFF0001
  else if n ≤ 0x015 then d
  else if n = 0x018 then d &&& 0xFFFEFFFFFFFFFFFF
  else if n = 0x019 ∨ n = 0x01A then d
  else if n < 0x040 then 0
  else if n < 0x048 then pcForm d
  else if n < 0x04C then d &&& 0x1FFFFFFFFFFFF
  else if n = 0x04C then d &&& 0xFFFF
  else if n = 0x04E then d &&& 0xFFFF00001F0F
  else d

/-- Set a member of a context group; a register that reads as RAW keeps only the datum (R132). -/
def HartSt.groupPut (x : HartSt) (i : Nat) (w : Word) : HartSt :=
  if i < 1000 then x.setPreg i w
  else if i = 1001 then x.setPreg 416 w
  else if i = 1002 then x.setPreg 417 w
  else if i = 1000 + 0x4D then x.setPreg (400 + x.cwp) w
  else x.setSprW (i - 1000) (if wholeWordSpr (i - 1000) then w else .raw (sprHeld (i - 1000) w.dat))

/-- The lazy record of a group's half (R115, R127). -/
def HartSt.lazyOf (x : HartSt) (g : Nat) : LazyHalf := if 2 ≤ g ∧ g < 6 then x.lazyU else x.lazyL

/-- Load a pending group from its save area, in the regime recorded at the restore; a fault or POISON there escalates as a
double stack fault at the area's address (R126, R127). Its completion sets the DIRTY bit (R124). -/
def lazyLoad (h : Hart) (g : Nat) : M Unit := do
  let x ← hartM h
  if !x.pending g then pure ()
  else do
    let z := x.lazyOf g
    let ws ← ((List.range 8).mapM (fun i =>
      tryCatch (do
          let (w, _) ← loadWordIn h z.regime (z.area + dat (8 * (8 + 8 * g + i))) 8 .other false
          pure w)
        (fun e => match e with
          | .trap t => throw (.esc 2 { t with addr := z.area })
          | e => throw e)))
    modM h (fun x =>
      let x := ((groupRegs x.cwp g).zip ws).foldl (fun x e => x.groupPut e.1 e.2) x
      (x.setSpr 0x081 (setFld (x.sprD 0x081) (16 + g) (16 + g) 0)).dirty (some g))

/-- The lazy loads a window move or a trap entry needs (R126). -/
def lazyWindow (h : Hart) : M Unit := [2, 3, 4, 5].forM (lazyLoad h)
/-- Every pending lazy load (R125). -/
def lazyAll (h : Hart) : M Unit := (List.range 16).forM (lazyLoad h)

/-- The lazy load a physical register needs. -/
def lazyPreg (h : Hart) (i : Nat) : M Unit := do
  match groupOfPreg (← hartM h).cwp i with
  | some g => lazyLoad h g
  | none => pure ()

/-- A special register as held, its group loaded. -/
def sprM (h : Hart) (n : Nat) : M Datum := do
  match groupOfSpr n with
  | some g => lazyLoad h g
  | none => pure ()
  return (← hartM h).sprD n
/-- Set a special register as held, its group loaded and DIRTY (R124, R126). -/
def setSprM (h : Hart) (n : Nat) (d : Datum) : M Unit := do
  match groupOfSpr n with
  | some g => lazyLoad h g
  | none => pure ()
  modM h (fun x => x.putSpr n d)

/-- Errors of a stored register are met by its read (R29, R36, R77): a single bit is corrected; two or more mark the word
POISON. Their entries name the register by its number (DESIGN CHOICE, log 30). -/
def Chip.meetReg (c : Chip) (h : Hart) (i : Nat) : Chip :=
  let x := c.hart h
  let fs := x.bad.filter (fun f => decide (f.preg = i))
  if fs.isEmpty then c
  else
    let w := x.preg i
    let c := fs.foldl (fun (c : Chip) f => c.arrayLog (1, (coreOf h).toNat) 6 f.n (dat i) w.dat) c
    c.modHart h (fun x => { x with
      bad := x.bad.filter (fun f => decide (f.preg ≠ i))
      regs := if fs.any (fun f => decide (f.n ≥ 2)) then sset x.regs i ⟨poisonTag, w.dat⟩ (.raw 0) else x.regs })

/-- A physical register as read: its group loaded, its errors met, a stale pointer healed in place (R29, R126, R453). -/
def readPreg (h : Hart) (i : Nat) : M Word := do
  lazyPreg h i
  modify (fun c => c.meetReg h i)
  let c ← get
  let w := (c.hart h).preg i
  if c.stale (c.hart h) w then do
    let v ← healFor h w
    modM h (fun x => x.putPreg i v)
    pure v
  else pure w

/-- A register specifier as read (R85), POISON carried. -/
def readSpec (h : Hart) (r : BitVec 6) : M Word := do
  if r = 49 then pure wNil
  else match pregOf (← hartM h).cwp r with
    | some i => readPreg h i
    | none => pure (.raw 0)

/-- The lazy load a register specifier needs: an instruction that writes rd after another effect has it made before that effect,
so that an escalation there leaves no effect (R126, R127). -/
def lazySpec (h : Hart) (r : BitVec 6) : M Unit := do
  match pregOf (← hartM h).cwp r with
  | some i => lazyPreg h i
  | none => pure ()

/-- A source register: POISON traps (R79). -/
def src (h : Hart) (r : BitVec 6) : M Word := do
  let w ← readSpec h r
  need (!isPoison w) { cause := cPoison }
  pure w

/-- Write a register specifier (R85, R87). -/
def writeSpec (h : Hart) (r : BitVec 6) (w : Word) : M Unit := do
  match pregOf (← hartM h).cwp r with
  | some i =>
    need (!(decide (i ≥ 416) && isPoison w)) { cause := cPoison }
    lazyPreg h i
    modM h (fun x => x.putPreg i w)
  | none => pure ()

/-- A field the opcode map marks 0 (R140). -/
def zeroField {n : Nat} (f : BitVec n) : M Unit := need (decide (f = 0)) { cause := cReserved }
/-- Register specifiers from 52 to 63 trap at decode (R86). -/
def specsOk (l : List (BitVec 6)) : M Unit := need (l.all (fun r => decide (r.toNat < 52))) { cause := cIllegal }
/-- The privilege an instruction needs (R143). -/
def needPriv (h : Hart) (p : Nat) : M Unit := do
  need (decide ((← hartM h).priv ≥ p)) { cause := cPrivilege }
/-- A base register of a memory access: RAW, or a pointer that is not global (R157). -/
def baseOf (w : Word) : M Datum := do
  let c ← get
  need (decide (w.tag = 0) || (c.ptr w && !c.glob w)) { cause := cType }
  pure w.dat
/-- A word that must be RAW (R721). -/
def rawOf (w : Word) : M Datum := do
  need (decide (w.tag = 0)) { cause := cType }
  pure w.dat
/-- A raw instruction's source: a word whose row has PTR = 1 traps (R149). -/
def rawSrc (w : Word) : M Datum := do
  need (!(← get).ptr w) { cause := cType }
  pure w.dat

end Sys2Proof.Machine
end

