-- ==== Sys2Proof/Machine/Flags.lean ====
section
/-! DEFINITION. The condition register (R146, R147) and the floating-point flags (R155, R156). -/
namespace Sys2Proof.Machine

/-- The COND datum of its five fields (R146). -/
def condOf (z lt ltu un tr : Bool) : Datum :=
  dat (b2n z + 2 * b2n lt + 4 * b2n ltu + 8 * b2n un + 16 * b2n tr)
/-- CMP and CMPI (R147). -/
def condCmp (a b : Datum) : Datum := condOf (a == b) (decide (a.toInt < b.toInt)) (decide (a.toNat < b.toNat)) false (a == b)
/-- The boolean result of GLT, GLE, GEQ, EQ, TAGCHK, STCND, TAS and WAITT (R147). -/
def condBool (b : Bool) : Datum := condOf b false false false b

/-- Write COND. -/
def setCond (h : Hart) (d : Datum) : M Unit := setSprM h 0x00F d

/-- Whether a branch condition holds (R148). -/
def condHolds (cond : BitVec 4) (d : Datum) : Bool :=
  let z := bit d 0; let lt := bit d 1; let ltu := bit d 2; let un := bit d 3; let tr := bit d 4
  match cond.toNat with
  | 0x0 => true | 0x1 => z | 0x2 => !z | 0x3 => lt | 0x4 => !lt && !un | 0x5 => lt || z
  | 0x6 => !lt && !z && !un | 0x7 => ltu | 0x8 => !ltu | 0x9 => un | 0xA => tr | _ => !tr

/-- Set FP_FLAGS, and trap where a raised flag is enabled (R155, R156): NV 16, DZ 8, OF 4, UF 2, NX 1. -/
def raiseFp (h : Hart) (flags : Nat) : M Unit := do
  if flags = 0 then pure ()
  else do
    let f ← sprM h 0x00E
    setSprM h 0x00E (f ||| dat flags)
    let en ← sprM h 0x00D
    let hit := (en.toNat &&& flags) % 32
    need (decide (hit = 0)) { cause := cFp, detail := hit }

end Sys2Proof.Machine
end

