-- ==== Sys2Proof/Machine/Traps.lean ====
section
/-! DEFINITION. Trace records (R666), trap entry (R277–R288), escalation (R304–R309), the return (R289, R294), load
landings (R159–R161), and interrupts as held (R314). -/
namespace Sys2Proof.Machine

/-- The trace buffer's base, and its size in records (R667). -/
def Chip.trcSlots (c : Chip) : Nat := 2 ^ (c.rf (Blk.dbg.base 0 + 0x100) 57 52) * 2048
/-- Write one record in the trace buffer; one that cannot be written is dropped and counted (R666). -/
def Chip.trcPut (c : Chip) (w0 w1 w2 w3 : Datum) : Chip :=
  let base := Blk.dbg.base 0
  let n := c.rf (base + 0x110) 31 0
  let a := c.rf (base + 0x100) 51 16 * 2 ^ 16 + 32 * (n % c.trcSlots)
  if c.region a ≠ .dram then c.setRf (base + 0x110) 63 32 (min (c.rf (base + 0x110) 63 32 + 1) 0xFFFFFFFF)
  else
    let c := [w0, w1, w2, w3].zipIdx.foldl (fun c e => c.agentWrite (wordCells (a + 8 * e.2) (.raw e.1))) c
    let c := c.setRf (base + 0x110) 31 0 (n + 1)
    if !bit (c.reg (base + 0x108)) 62 && decide ((n + 1) % c.trcSlots = 0) then c.setRf (base + 0x108) 63 63 0 else c
/-- A trace record's word 0 (R666). -/
def Chip.trcWord (c : Chip) (kind hart : Nat) : Datum :=
  dat (kind * 2 ^ 60 + hart * 2 ^ 48 + (c.time.counter.extractLsb' 16 48).toNat)
/-- A tile's record, and a time sync after each 2^16 of its records (R666). -/
def Chip.trcTile (c : Chip) (t kind hart : Nat) (w1 w2 w3 : Datum) : Chip :=
  let c := c.trcPut (c.trcWord kind hart) w1 w2 w3
  let n := sget c.traceSync t 0 + 1
  let c := { c with traceSync := sset c.traceSync t (n % 2 ^ 16) 0 }
  if n = 2 ^ 16 then c.trcPut (c.trcWord 7 hart) (c.time.counter.extractLsb' 64 32 |>.zeroExtend 64) 0 0 else c
/-- A thread's record, where its partition is traced (R666) (DEDUCED, log 21). -/
def Chip.trace (c : Chip) (h : Hart) (kind : Nat) (w1 w2 w3 : Datum) : Chip :=
  let ctl := c.reg (Blk.dbg.base 0 + 0x108)
  if bit ctl 63 && decide (fld ctl 11 0 = (c.hart h).vmid.toNat) then c.trcTile (tileOf h) kind h.toNat w1 w2 w3 else c

/-- Land the results that are due, or every result for a serialising instruction (R159, R160, R163). -/
def landWhere (p : Landing → Bool) (x : HartSt) : HartSt :=
  let y := (x.landings.filter p).foldl (fun y l => y.putPreg l.preg l.word) x
  { y with landings := x.landings.filter (fun l => !p l) }
/-- Land the results whose slots have run out (DEDUCED, log 40). -/
def landDue (x : HartSt) : HartSt := landWhere (fun l => decide (l.slots = 0)) x
/-- Land every result (DEDUCED, log 40). -/
def landAll (x : HartSt) : HartSt := landWhere (fun _ => true) x

/-- A performance counter of the hart's core has OVF set (R685). -/
def Chip.perfPend (c : Chip) (h : Hart) : Bool :=
  (List.range 4).any (fun i => bit (c.reg (Blk.cor.base (clusterOf h).toNat + 0x100 + 0x20 * ((coreOf h).toNat % 8) + 8 * i)) 63)

/-- INT_PEND (R314): SOFT, IPI and TIMER are latched; the others are held by their sources. -/
def Chip.intPend (c : Chip) (h : Hart) : Nat :=
  let x := c.hart h
  let p := x.sprD 0x131
  fld (x.sprD 0x104) 2 0 + 8 * b2n (c.heldIrq h false) + 16 * b2n (decide (fld p 63 32 ≠ fld p 31 0))
    + 32 * b2n (c.perfPend h) + 64 * b2n (c.heldIrq h true)

/-- The handler's privilege of a cause (R275, R277) (DEDUCED, log 38). -/
def handlerPriv (t : Trap) (cause cur : Nat) : Nat :=
  let h := if (cause = cTransl ∨ cause = cPerm ∨ cause = cWalkDev) ∧ t.stage = 2 then 3
    else if cause = cSoft then (if cur = 0 then 1 else 3)
    else if cause = cDse then max 1 (fld (dat t.detail) 9 8)
    else 1
  max h cur

/-- The form of a stack pointer (R280). -/
def spForm (d : Datum) : Bool := localForm d

/-- The LOOP word (R287). -/
def HartSt.loopWord (x : HartSt) (pc : Datum) : Datum :=
  dat (fld (x.sprD 0x04C) 15 0 + (List.range 4).foldl (fun a d =>
    if d < x.ldepth ∧ x.sprD (0x044 + d) = pc ∧ fld (x.sprD (0x048 + d)) 48 32 = x.spilled + x.resident
    then a + 2 ^ (16 + d) else a) 0)

/-- The LDINFO word (R288). -/
def ldinfo : List Landing → Datum
  | [] => 0
  | [a] => dat (1 + a.slots * 4 + a.preg * 2 ^ 16)
  | a :: b :: _ => dat (1 + 2 + a.slots * 4 + b.slots * 16 + a.preg * 2 ^ 16 + b.preg * 2 ^ 32)

/-- The words of a frame (R284–R287) (DEDUCED, log 38). -/
def frameWords (x : HartSt) (pc : Datum) (t : Trap) (cause : Nat) (async : Bool) (hp : Nat) (esc : Option Nat)
    (insn : BitVec 32) : List Word :=
  let l := x.landings
  [ wCode pc
  , .raw x.pstate
  , .raw (dat (cause + hp * 2 ^ 8 + b2n async * 2 ^ 11 + (match esc with | some v => v * 2 ^ 12 + 2 ^ 15 | none => 0)))
  , .raw t.addr
  , .raw (dat (t.detail % 2 ^ 16 * 2 ^ 16 + t.access * 2 ^ 8 + t.stage * 2 ^ 6 + t.level * 2 ^ 4))
  , .raw (if async || t.noInsn then 0 else insn.zeroExtend 64)
  , .raw x.winPtr
  , .raw (x.loopWord pc)
  , .raw (dat x.tub.length)
  , .raw x.sp
  , .raw (x.sprD 0x00F)
  , .raw (ldinfo l)
  , (l[0]?.map (·.word)).getD (.raw 0)
  , (l[1]?.map (·.word)).getD (.raw 0)
  , .raw (if esc.isSome then x.sprD 0x083 else 0)
  , .raw 0 ]

/-- Store the 16 words of a frame at an address, in the regime of a privilege (R280, R305); a landing's word goes as it was
loaded, INSN too (R284). -/
def pushFrame (h : Hart) (priv : Nat) (f : Datum) (ws : List Word) : M Unit := do
  let r := (← hartM h).regimeAt priv
  ws.zipIdx.forM (fun e => storeWordIn h r (f + dat (8 * e.2)) e.1 7 .other .any)

/-- A thread halts at precise state (R309): the entry, a freeze with trigger bit 1, and MACHINE_CHECK at its partition's
lowest-numbered running hart (DEDUCED, log 38). -/
def Chip.haltThread (c : Chip) (h : Hart) (pc : Datum) (cause : Nat) : Chip :=
  let c := c.modHart h (fun x => { x with run := .halted, wait := none })
  let c := c.log 0 h.toNat 0x2004 pc (dat cause)
  let c := c.freeze 1 (trigWord 0 h.toNat 0x2004)
  c.notifyMc (c.monitorOf (c.hart h).vmid) (dat h.toNat) 0x2004

/-- What every entry does to the thread beside its registers: the reservation is lost (R165), the landings are in the
frame (R291), and no routine or wait remains. -/
def HartSt.entered (x : HartSt) : HartSt := { x with resv := none, landings := [], wait := none, micro := none, nest := [], run := .run }

/-- COND's group is loaded for a frame (R126); where that load fails, the escalation takes COND as the hart holds it, and the
group stays pending (DESIGN CHOICE, log 83). -/
def Chip.loadCond (c : Chip) (h : Hart) : Chip :=
  match lazyLoad h 9 c with
  | .ok _ d => d
  | .error _ _ => c

/-- escalate(v, c) of R305. -/
def Chip.escalate (c : Chip) (h : Hart) (v cause : Nat) (t : Trap) (async : Bool) (pc : Datum) (insn : BitVec 32) : Chip :=
  let c := c.loadCond h
  let x := c.hart h
  let sp := x.sprD 0x083
  let f := (sp - 128) &&& ~~~(63 : Datum)
  if !spForm sp then c.haltThread h pc cause
  else
    let ws := frameWords x pc t cause async 3 (some v) insn
    match pushFrame h 3 f ws c with
    | .error _ c => c.haltThread h pc cause
    | .ok _ c =>
      let c := c.modHart h (fun x =>
        let x := x.entered
        let x := (x.setSpr 0x083 f).setSpr 0x100 (x.sprD 0x100 ||| dat (2 ^ v))
        let x := match t.ipa with | some d => x.setSpr 0x113 d | none => x
        { x.putSpr 0x000 (dat (3 + 8)) with pc := pcForm ((x.sprD 0x082 &&& ~~~(255 : Datum)) + dat (32 * v)) })
      (c.pmc h 0x0A 1).trace h 2 pc (dat (cause + 3 * 2 ^ 8 + b2n async * 2 ^ 11 + v * 2 ^ 12 + 2 ^ 15)) t.addr

/-- enter(c) of R280: `pc0` is the trapping instruction's PC, `pc` the saved PC. Gives whether the cause itself was
entered: neither WIN_OVERFLOW or CALL_DEPTH in its place (R281), nor an escalation (R282). Trap entry uses the window and COND
(R126). -/
def Chip.enter (c : Chip) (h : Hart) (t : Trap) (async : Bool) (pc0 pc : Datum) (insn : BitVec 32) : Chip × Bool :=
  let x := c.hart h
  let window := fun k => decide (k = cWinOver) || decide (k = cWinUnder) || decide (k = cDepth)
  let replaced := !window t.cause && decide (x.resident = 15)
  let cause := if replaced then (if x.spilled < fld (x.sprD 0x006) 15 0 then cWinOver else cDepth) else t.cause
  let pc := if replaced && !async then pc0 else pc
  let t := if replaced then { cause := cause, noInsn := async || t.noInsn : Trap } else t
  let async := async && !replaced
  let lazied := (do
    lazyWindow h
    lazyLoad h 9 : M Unit) c
  match lazied with
  | .error (.esc v t') c => (c.escalate h v t'.cause t' async pc insn, false)
  | .error _ c => (c.escalate h 2 cause t async pc insn, false)
  | .ok _ c =>
    let x := c.hart h
    let hp := handlerPriv t cause x.priv
    let base := if hp = x.priv then x.sp else if hp = 1 then x.sprD 0x00A else x.sprD 0x102
    let limit := if hp = 1 then x.sprD 0x004 else x.sprD 0x103
    let f := (base - 128) &&& ~~~(63 : Datum)
    let c := if cause = cDepth then
        (c.log 0 h.toNat 0x2005 pc x.winPtr).freeze 1 (trigWord 0 h.toNat 0x2005) else c
    if !spForm base then (c.escalate h 3 cause t async pc insn, false)
    else if f.toNat < limit.toNat then (c.escalate h 4 cause t async pc insn, false)
    else
      match pushFrame h hp f (frameWords x pc t cause async hp none insn) c with
      | .error _ c => (c.escalate h 3 cause t async pc insn, false)
      | .ok _ c =>
        let c := c.modHart h (fun x =>
          let x := x.entered.putPreg 416 (.raw f)
          let x := x.putSpr 0x000 (dat (hp + 8 * b2n (window cause)))
          let x := if window cause then x else x.advance (wCode pc)
          let x := match t.ipa with | some d => x.setSpr 0x113 d | none => x
          { x with pc := pcForm (((if hp = 1 then x.sprD 0x008 else x.sprD 0x101) &&& ~~~(2047 : Datum)) + dat (32 * cause)) })
        ((c.pmc h 0x0A 1).trace h 2 pc (dat (cause + hp * 2 ^ 8 + b2n async * 2 ^ 11)) t.addr, !replaced)

/-- A synchronous trap of an instruction (R103, R307): with an escalation in progress it halts the thread, in Tram mode it
escalates as a double stack fault, else it enters its handler. Gives whether its handler was entered. -/
def Chip.tryTrap (c : Chip) (h : Hart) (t : Trap) (pc0 pc : Datum) (insn : BitVec 32) : Chip × Bool :=
  let c := c.modHart h landDue
  let x := c.hart h
  if x.active ≠ 0 then (c.haltThread h pc0 t.cause, false)
  else if x.tramMode then (c.escalate h 2 t.cause t false pc0 insn, false)
  else c.enter h t false pc0 pc insn
/-- The module after a synchronous trap. -/
def Chip.takeTrap (c : Chip) (h : Hart) (t : Trap) (pc0 pc : Datum) (insn : BitVec 32) : Chip := (c.tryTrap h t pc0 pc insn).1

/-- What a stop makes of the module: a trap or an escalation taken, or, for a wait, the state before the command, with the
exhaustion the attempt met reported (R723). -/
def Chip.stopped (before c : Chip) (h : Hart) (s : Stop) (pc0 pc : Datum) (insn : BitVec 32) : Chip :=
  match s with
  | .trap t => c.takeTrap h t pc0 (if t.cause = cSoft then pc else pc0) insn
  | .esc v t =>
    if (c.hart h).active ≠ 0 then c.haltThread h pc0 t.cause
    else (c.modHart h landDue).escalate h v t.cause t false pc0 insn
  | .wait => before.keepStalls c

/-- The checks of ERET on a frame (R289): COND, PSTATE, LDINFO and the loop state. -/
def eretOk (x : HartSt) (w : List Word) : Bool :=
  let g := fun (i : Nat) => (w[i]?).getD (Word.raw 0)
  let p := (g 1).dat
  let l := (g 11).dat
  let land := fun (v s r : Nat) => !bit l v || ((decide (fld l (s + 1) s = 1) || decide (fld l (s + 1) s = 2)) &&
    decide (fld l (r + 8) r ≤ 417))
  decide ((g 0).type = 0x12) && decide (fld p 63 8 = 0) && decide (fld p 1 0 ≠ 2) && decide (fld p 6 4 ≤ 4)
    && land 0 2 16 && land 1 4 32 && !(bit p 7 && decide (fld (x.sprD 0x04C) 15 0 = 0))

/-- ERET (R289, R290, R294): the PC it goes to. The groups its landings write are loaded here, before the landings (R126)
(DEDUCED, log 40). -/
def eretBody (h : Hart) : M Datum := do
  let x ← hartM h
  let esc := decide (x.active ≠ 0)
  let f := if esc then x.sprD 0x083 else x.sp
  let ws ← (List.range 16).mapM (fun i => loadWord h (f + dat (8 * i)) 7)
  let g := fun (i : Nat) => (ws[i]?).getD (Word.raw 0)
  need (eretOk x ws) { cause := cIllegal }
  let ps := (g 1).dat
  need (decide (fld ps 1 0 ≤ x.priv)) { cause := cPrivilege }
  lazyLoad h 9
  let cwp := fld (g 6).dat 3 0
  if cwp = x.cwp then pure ()
  else do
    need (decide (cwp = (x.cwp + 15) % 16)) { cause := cIllegal }
    need (decide (x.resident ≠ 1)) { cause := cWinUnder }
    lazyWindow h
    modM h HartSt.retreat
  let l := (g 11).dat
  let lands := (if bit l 0 then [Landing.mk (fld l 24 16) (g 12) (fld l 3 2 + 1)] else []) ++
    (if bit l 1 then [Landing.mk (fld l 40 32) (g 13) (fld l 5 4 + 1)] else [])
  lands.forM (fun (l : Landing) => lazyPreg h l.preg)
  modM h (fun x =>
    let x := (x.putSpr 0x000 ps).putSpr 0x00F ((g 10).dat &&& 31)
    let x := x.putPreg 416 (.raw (g 9).dat)
    let x := if esc then
        let a := x.sprD 0x100
        (x.setSpr 0x083 (g 14).dat).setSpr 0x100 (a &&& (a - 1))
      else x
    { x with landings := lands })
  modify (fun c => c.trace h 3 (g 0).dat ps 0)
  pure (g 0).dat

end Sys2Proof.Machine
end

