-- ==== Sys2Proof/Machine/Sluice.lean ====
section
/-! DEFINITION. The collector's phases, flips, sweeps, tracing, relocation and commands (R442–R486). -/
namespace Sys2Proof.Machine

/-- STATUS and its fields. -/
def stAt (k : Nat) : Nat := ctxReg k 0x38
def Chip.setStatus (c : Chip) (k hi lo v : Nat) : Chip := c.setRf (stAt k) hi lo v

/-- A source has a token (R504): a hart, an engine or the flip controller (DESIGN CHOICE, log 6). -/
def Chip.hasToken (c : Chip) (src : Nat) : Bool := decide (sget c.tokens src 0 < 2)
/-- An injection takes one (R504). -/
def Chip.takeToken (c : Chip) (src : Nat) : Chip := { c with tokens := sset c.tokens src (sget c.tokens src 0 + 1) 0 }
/-- The buckets of the units (R475): the engine of SLU_t, and the flip controller of SLU_8. -/
def engineSrc (t : Nat) : Nat := 2048 + t
def flipSrc : Nat := 2056
/-- A unit's injection finds a token, and nothing of that unit is held before it (R505). -/
def Chip.unitMay (c : Chip) (src : Nat) : Bool := c.hasToken src && !c.held.any (fun e => decide (e.1 = src))
/-- A unit's injection is held (R505), with its Canary entry. -/
def Chip.unitHold (c : Chip) (src : Nat) (m : HeldMsg) : Chip :=
  ({ c with held := c.held ++ [(src, m)] }).log 4 (src - 2048) 0x3003 (dat (src - 2048)) 0
/-- The trace's record of a Cage flit of a traced partition (R666, R514): no rule gives a flit's layout, so its bits are free
(DESIGN CHOICE, log 51). -/
def Chip.traceCage (c : Chip) (vmid : Nat) (h : Hart) (rail : Bool) : Chip :=
  let ctl := c.reg (Blk.dbg.base 0 + 0x108)
  if bit ctl 63 && bit ctl 61 && decide (fld ctl 11 0 = vmid) then
    c.tick.tick.trcTile (tileOf h) 5 h.toNat (Config.freeDatum c.fresh) (Config.freeDatum (c.fresh + 1)) (dat (b2n rail))
  else c
/-- A flit of a collector context passes the root; it comes from no hart, and is recorded as of hart 0 (DESIGN CHOICE, log 51). -/
def Chip.traceCtx (c : Chip) (k : Nat) : Chip := c.traceCage (c.rf (ctxReg k 0) 11 0) 0 false
/-- The flip controller's announcement goes, or is held (R470, R475). -/
def Chip.sendAnnounce (c : Chip) (k : Nat) : Chip :=
  if c.unitMay flipSrc then (c.takeToken flipSrc).traceCtx k else c.unitHold flipSrc (.announce k)
/-- A job record of the CAGE class goes, or is held (R475, R546). -/
def Chip.sendJob (c : Chip) (n : BitVec 18) (r : Record) : Chip :=
  if c.unitMay flipSrc then (c.takeToken flipSrc).sendRecord n r else c.unitHold flipSrc (.job n r)
/-- The eight engines join a combining round of a context, each within its bucket (R465, R475). -/
def Chip.joinRound (c : Chip) (k : Nat) : Chip :=
  (List.range 8).foldl (fun (c : Chip) t =>
    if c.unitMay (engineSrc t) then c.takeToken (engineSrc t) else c.unitHold (engineSrc t) (.round k)) c
/-- What of a unit's for a context is still held. -/
def Chip.holds (c : Chip) (m : HeldMsg) : Bool := c.held.any (fun e => decide (e.2 = m))

/-- Clear a range of memory to RAW zero, as an engine of R360; what lies beyond DRAM is discarded and counted (R672). -/
def Chip.clearRange (c : Chip) (a n : Nat) : Chip :=
  let inR := fun (l : Nat) => decide (a / 64 ≤ l) && decide (64 * l < a + n)
  let c := ((c.caches.slots.map (fun s => s.line) ++ c.caches.dirty.map (fun d => d.line)).eraseDups.filter inR).foldl
    (fun (c : Chip) l => c.invalidate l) c
  let c := c.forgetAll (fun p => match p with
    | .datumLine l => inR l
    | .tagLine g => inR (8 * g) && inR (8 * g + 7)
    | .tail p _ => inR (p / 64)
    | _ => false)
  let c : Chip := { c with
    mem := c.mem.filter (fun e => if tagBase ≤ e.1 then !(decide (a ≤ (e.1 - tagBase) * 8) && decide ((e.1 - tagBase) * 8 < a + n))
                                  else !(decide (a ≤ e.1) && decide (e.1 < a + n))) }
  let beyond := (a + n - max a c.dramEnd) / 64
  let c := (List.range (min beyond 0x10000)).foldl (fun (c : Chip) i => c.unpopulated .hardware (max a c.dramEnd + 64 * i)) c
  (c.harts.filterMap (fun e => e.2.resv.map (fun p => p.toNat / 64))).foldl
    (fun c l => if inR l then c.loseResv l none else c) c

/-- The root list is read into ranges (R484): RAW pairs up to one of length 0 or a breach, at most 4,096. -/
def Chip.readRoots (c : Chip) (k : Nat) : List Nat → Chip × List (Nat × Nat)
  | [] => (c, [])
  | i :: rest =>
    let a := c.rf (ctxReg k 0x20) 51 3 * 8 + 16 * i
    let (c, s) := c.unitRead a
    let (c, l) := c.unitRead (a + 8)
    let n := l.dat.toNat
    if s.tag ≠ 0 || l.tag ≠ 0 || s.dat.toNat % 8 ≠ 0 || n % 8 ≠ 0 || decide (n > 2 ^ 40) then (c.err sluBase .hardware 9 0, [])
    else if n = 0 then (c, [])
    else
      let (c, r) := c.readRoots k rest
      (c, (s.dat.toNat, n) :: r)
/-- Read the root list for tracing. -/
def Chip.loadRoots (c : Chip) (k : Nat) : Chip :=
  let (c, r) := c.readRoots k (List.range 4096)
  c.setSlc k { c.slc k with ranges := r }

/-- The next good colour (R442). -/
def nextGood (g : Nat) : Nat := if g = 1 then 2 else if g = 2 then 3 else 1

/-- Announce a flip or a remap sweep to the 64 clusters (R470, R475). -/
def Chip.announce (c : Chip) (k : Nat) (remap : Bool) : Chip :=
  ((c.setStatus k 42 42 1).setSlc k { c.slc k with announce := 0 - 1, ack := 0, remapSweep := remap }).sendAnnounce k

/-- A remote access at this home in the partition a context collects. -/
def Chip.homeOf (c : Chip) (k : Nat) (r : HomeRec) : Bool :=
  decide (1 ≤ r.rcd.op.toNat) && decide (r.rcd.op.toNat ≤ 6)
    && decide (c.rf (gwinS2At r.rcd.win.toNat) 11 0 = c.rf (ctxReg k 0) 11 0)

/-- A MARK counts LIVE and SPAN afresh in every entry of the heap: they describe the last MARK alone (R458)
(DESIGN CHOICE, log 48). -/
def Chip.clearLive (c : Chip) (k : Nat) : Chip :=
  (List.range (c.heapCount k)).foldl (fun c i =>
    let d := c.rgn (c.pfirst k + i)
    if rgnLive d = 0 && !rgnSpan d then c else c.setRgn (c.pfirst k + i) (setFld (setFld d 50 32 0) 53 53 0)) c

/-- A flip of a context to a phase (R442, R470, R473, R474): remote accesses already accepted belong before it (R481), the planes
are in use from the START flip on (R469), and members' acknowledgements of this flip that came before it count. -/
def Chip.flip (c : Chip) (k phase : Nat) : Chip :=
  let c : Chip := { c with home := c.home.map (fun r => if c.homeOf k r && r.got.isNone then { r with before := true } else r) }
  let c := if phase = 1 then c.clearLive k else c
  let c := c.setStatus k 63 48 ((c.ctxEpoch k + 1) % 2 ^ 16)
  let c := c.setStatus k 47 46 (nextGood (c.ctxGood k).toNat)
  let c := c.setStatus k 45 43 phase
  let c := c.setStatus k 41 41 0
  let c := c.setStatus k 39 39 (b2n (!c.locked))
  let c := if phase = 1 then c.setStatus k 40 40 0 else c
  let early := (sget c.acked k []).filter (fun a => decide (a / 2 ^ 18 = c.ctxEpoch k))
  let c := (c.setStatus k 38 38 0).setRf (ctxReg k 0x40) 25 8 (if bit (c.reg (ctxReg k 0x40)) 62 then early.length else 0)
  let c := { c with acked := sset c.acked k early [], termReplies := sset c.termReplies k [] [] }
  let c := c.announce k false
  let s := c.slc k
  c.setSlc k { s with
    active := false, quiet := 0, stirred := true, wave := 0
    objs := if phase = 1 then [] else s.objs
    queue := if phase = 1 then [] else s.queue }

/-- The context enters IDLE: its planes are to be cleared (R462, R469, R486). -/
def Chip.enterIdle (c : Chip) (k : Nat) : Chip :=
  let c := ((c.setStatus k 45 43 0).setStatus k 40 40 0).irq sluBase k
  c.setSlc k { c.slc k with queue := [], objs := [], targets := [], evac := [], ranges := [], active := false, quiet := 0 }

/-- a is after b under 16-bit serial comparison (R444). -/
def epochAfter (a b : Nat) : Bool := decide (1 ≤ (a + 2 ^ 16 - b) % 2 ^ 16) && decide ((a + 2 ^ 16 - b) % 2 ^ 16 ≤ 32767)

/-- Insert a region by increasing LIVE, the lower region first where LIVE is equal (R466). -/
def insertLive (e : Nat × Nat) : List (Nat × Nat) → List (Nat × Nat)
  | [] => [e]
  | f :: t => if e.2 < f.2 ∨ (e.2 = f.2 ∧ e.1 < f.1) then e :: f :: t else f :: insertLive e t

/-- TARGET regions a selection needs: ceil(L / 229,376) + 1 for each GEN of it (R466). -/
def targetsNeeded (sel : List (Nat × Nat × Nat)) : Nat :=
  (List.range 4).foldl (fun a g =>
    let l := sel.filter (fun e => decide (e.2.2 = g))
    if l.isEmpty then a else a + ((l.foldl (fun s e => s + e.2.1) 0 + 229375) / 229376 + 1)) 0

/-- Take candidates while the limit and the FREE regions allow (R466 step 2). -/
def takeSel (max free : Nat) : List (Nat × Nat × Nat) → List (Nat × Nat × Nat) → List (Nat × Nat × Nat)
  | sel, [] => sel
  | sel, e :: t => if sel.length < max ∧ targetsNeeded (sel ++ [e]) ≤ free then takeSel max free (sel ++ [e]) t else sel

/-- Reserve the lowest FREE regions as targets of a generation (R466 step 3). -/
def Chip.reserve (c : Chip) (k gen : Nat) : Nat → Chip
  | 0 => c
  | n + 1 =>
    match (List.range (c.heapCount k)).find? (fun i => decide (rgnState (c.rgn (c.pfirst k + i)) = 0)) with
    | none => c
    | some i =>
      let r := c.pfirst k + i
      let c := c.rgnTo k r 6 true
      let c := c.setRgn r (setFld (c.rgn r) 59 58 gen)
      (c.setSlc k { c.slc k with targets := (c.slc k).targets ++ [⟨i, BitVec.ofNat 2 gen, 0⟩] }).reserve k gen n

/-- RELOCATE_PREP (R462, R466): selection, reservation, refresh; then IDLE, the flip, or the wait under HOLD. -/
def Chip.relocatePrep (c : Chip) (k : Nat) : Chip :=
  let c := c.setStatus k 45 43 2
  let heap := (List.range (c.heapCount k)).map (fun i => c.pfirst k + i)
  let c := c.rgnReads k heap
  let limit := c.rf (ctxReg k 0) 55 48 * 262144
  let cand := heap.filter (fun r =>
    let d := c.rgn r
    decide (rgnState d = 2) && !rgnSpan d && epochAfter (c.ctxEpoch k) (rgnEpoch d) && decide (rgnLive d * 100 ≤ limit))
  let sorted := cand.foldl (fun l r => insertLive (r, rgnLive (c.rgn r)) l) []
  let free := (heap.filter (fun r => decide (rgnState (c.rgn r) = 0))).length
  let sel := takeSel (c.rf (ctxReg k 0) 47 31) free [] (sorted.map (fun e => (e.1, e.2, rgnGen (c.rgn e.1))))
  let c := (List.range 4).foldl (fun c g =>
    let l := sel.filter (fun e => decide (e.2.2 = g))
    if l.isEmpty then c else c.reserve k g ((l.foldl (fun s e => s + e.2.1) 0 + 229375) / 229376 + 1)) c
  let c := sel.foldl (fun c e => c.rgnTo k e.1 3 false) c
  let c := c.setStatus k 33 17 sel.length
  let c := (heap.filter (fun r => decide (rgnState (c.rgn r) = 2))).foldl (fun c r =>
    let d := c.rgn r
    c.setRgn r (setFld (setFld (setFld d 31 16 (c.ctxEpoch k)) 50 32 0) 53 53 0)) c
  let c := c.setSlc k { c.slc k with evac := sel.map (fun e => e.1) }
  if sel.isEmpty then c.enterIdle k
  else if bit (c.reg (ctxReg k 0)) 62 then c.irq sluBase k
  else c.flip k 3

/-- REMAP begins: the remap sweep is announced and the roots are read (R468, R470, R484). -/
def Chip.enterRemap (c : Chip) (k : Nat) : Chip :=
  let c := c.setStatus k 45 43 4
  let c := (c.announce k true).loadRoots k
  c.setSlc k { c.slc k with queue := [], active := false, quiet := 0 }

/-- An object has been copied: its first word is FWD. -/
def Chip.moved (c : Chip) (p : PA) : Bool := decide ((c.word p.toNat).tag = 0x07)

/-- EVAC regions whose marked objects are all copied become DRAINED; the last one begins REMAP (R460, R462). -/
def Chip.drainRegions (c : Chip) (k : Nat) : Chip :=
  if c.ctxPhase k ≠ 3 || !c.flipDone k then c
  else
    let s := c.slc k
    let done := s.evac.filter (fun r => s.objs.all (fun o => decide (o.1.toNat / 2 ^ 21 ≠ r) || c.moved o.1))
    let c := done.foldl (fun c r => c.rgnTo k r 4 false) c
    let left := s.evac.filter (fun r => !done.contains r)
    let c := c.setSlc k { c.slc k with evac := left }
    if left.isEmpty then c.enterRemap k else c

/-- The end of REMAP, once its sweep and its trace are complete (R460, R468). -/
def Chip.endRemap (c : Chip) (k : Nat) : Chip :=
  let heap := (List.range (c.heapCount k)).map (fun i => c.pfirst k + i)
  let c := heap.foldl (fun c r =>
    let st := rgnState (c.rgn r)
    if st = 6 then c.rgnTo k r 2 true
    else if st = 4 && !c.jobEn k then c.rgnTo k r 0 true else c) c
  c.enterIdle k

/-- visit(p): set the object's VISIT bit and queue it where the bit was 0 (R468). -/
def Chip.visit (c : Chip) (k : Nat) (w : Word) : Chip :=
  match c.heapPtr k w with
  | none => c
  | some p =>
    let (a, b) := c.planeAt k (c.visitBase k) p
    let (c, m) := c.sluRead k a
    if isPoison m || bit m.dat b then c
    else
      let c := c.unitWrite a ⟨m.tag, m.dat ||| dat (2 ^ b)⟩
      let s := c.slc k
      c.setSlc k { s with queue := s.queue ++ [(BitVec.ofNat 52 p, w.type)], active := true, stirred := true }

/-- A JOB member's flip acknowledgement counts at the coordinator (R474); at MEMBERS, JOBACK and the confirmations. -/
def Chip.countAck (c : Chip) (k : Nat) (node : Option Nat) : Chip :=
  let c := c.setRf (ctxReg k 0x40) 25 8 (c.rf (ctxReg k 0x40) 25 8 + 1)
  let l := sget c.acked k [] ++ (node.map (fun n => n + 2 ^ 18 * c.ctxEpoch k)).toList
  let c := { c with acked := sset c.acked k l [] }
  if c.rf (ctxReg k 0x40) 25 8 = c.rf (ctxReg k 0x40) 43 26 then
    let win := (c.windowOf (BitVec.ofNat 12 (c.rf (ctxReg k 0) 11 0))).getD 0
    let c := (c.setStatus k 38 38 1).irq sluBase (16 + k)
    (l.filter (fun a => decide (a / 2 ^ 18 = c.ctxEpoch k))).foldl
      (fun c n => c.sendJob (BitVec.ofNat 18 n) (jobRecord 0x0A win (c.ctxEpoch k) 0)) c
  else c

/-- What a complete flip or sweep brings (R464, R468, R470, R474, R546). -/
def Chip.flipComplete (c : Chip) (k : Nat) : Chip :=
  let c := c.setStatus k 42 42 0
  let s := c.slc k
  if s.remapSweep then c.setSlc k { s with remapSweep := false }
  else
    let c := if c.jobEn k then
        (if bit (c.reg (ctxReg k 0x40)) 62 then c.countAck k none
         else
           let win := (c.windowOf (BitVec.ofNat 12 (c.rf (ctxReg k 0) 11 0))).getD 0
           c.sendJob (BitVec.ofNat 18 (c.rf (ctxReg k 0x40) 61 44)) (jobRecord 0x09 win (c.ctxEpoch k) 0))
      else c
    if c.ctxPhase k = 1 then
      let c := c.loadRoots k
      { c with home := c.home ++ c.heldMarks, heldMarks := [] }
    else c.drainRegions k

/-- The harts of a cluster whose partition a context collects. -/
def Chip.collected (c : Chip) (k : Nat) (cl : BitVec 6) : List Hart :=
  (c.harts.filter (fun e => decide (clusterOf (BitVec.ofNat 11 e.1) = cl)
    && decide (e.2.vmid.toNat = c.rf (ctxReg k 0) 11 0) && decide (e.2.run ≠ .off))).map (fun e => BitVec.ofNat 11 e.1)

/-- The physical registers a sweep covers: the globals, and the resident windows with their RLINKs (R471). -/
def HartSt.sweptPregs (x : HartSt) : List Nat :=
  let resident := (List.range x.resident).flatMap (fun i =>
    let w := (x.cwp + 16 - i) % 16
    (400 + w) :: (List.range 32).map (fun j => (24 * w + j) % 384))
  ((List.range 16).map (fun i => 384 + i) ++ resident).eraseDups
/-- The special registers a sweep covers: BS0, BS1, LONG_A and LONG_B. -/
def sweptSprs : List Nat := [0x012, 0x013, 0x019, 0x01A]
/-- The words of a routine's state that a sweep covers. -/
def Micro.swept (m : Micro) : List Word := m.us.map (fun e => e.2) ++ [m.ops, m.opt, m.opd, m.mdr]
/-- A flip whose sweeps heal: a MARK flip or a remap sweep (R471). -/
def Chip.sweepHeals (c : Chip) (k : Nat) : Bool := decide (c.ctxPhase k = 1) || (c.slc k).remapSweep

/-- Nothing a thread issued is outstanding (R471). -/
def Chip.quietHart (c : Chip) (h : Hart) : Bool :=
  !c.stope.any (fun q => decide (q.hart = h)) && !c.remote.any (fun o => decide (o.hart = h))
    && !(c.hart h).tub.any (fun e => decide (e.val = .waiting))
/-- A thread holds something that R471 requires of it: work outstanding, or pointers that a sweep would heal. -/
def Chip.owesSweep (c : Chip) (k : Nat) (h : Hart) : Bool :=
  let x := c.hart h
  let words := x.sweptPregs.map x.preg ++ sweptSprs.map x.sprW ++ x.landings.map (fun l => l.word)
    ++ x.tub.filterMap (fun e => match e.val with | .word w => some w | _ => none)
    ++ (x.micro.toList ++ x.nest).flatMap Micro.swept
  !c.quietHart h || c.sb.any (fun e => decide (e.hart = h))
    || (c.sweepHeals k && ((List.range 16).any x.pending || words.any (fun w => !isPoison w && c.ptr w)))

/-- A cluster is brought ON for its sweeps alone, or returns to RETAIN after them (R472): its threads stay stopped. -/
def Chip.sweepDom (c : Chip) (k : Nat) (d : Dom) : Chip := { c with power := { c.power with doms := sset c.power.doms (clusterDom k) d .on } }

/-- A flip announcement reaches a cluster: its collected threads adopt the view and owe a sweep (R443, R471). Power control
brings a cluster in RETAIN ON where its threads hold something the sweep requires (R472); they execute nothing there. -/
def Chip.announced (c : Chip) (k : Nat) (cl : BitVec 6) : Chip :=
  let s := c.slc k
  if c.flipDone k || !s.announce.getLsbD cl.toNat || c.holds (.announce k) then c
  else
    let wake := decide (c.dom (clusterDom cl.toNat) = .retain) && (c.collected k cl).any (c.owesSweep k)
    let b : BitVec 64 := (1 : BitVec 64) <<< cl.toNat
    let c := c.setSlc k { s with announce := s.announce &&& ~~~b, woken := if wake then s.woken ||| b else s.woken }
    let c := if wake then c.sweepDom cl.toNat .on else c
    (c.collected k cl).foldl (fun c h => c.modHart h (fun x =>
      { x with epoch := BitVec.ofNat 16 (c.ctxEpoch k), good := c.ctxGood k, sweep := true })) c

/-- A cluster acknowledges (R470–R472): OFF, or with no collected thread; or announced with every sweep complete, or in
RETAIN. One that was woken for its sweeps returns to RETAIN. The last acknowledgement completes. -/
def Chip.acknowledged (c : Chip) (k : Nat) (cl : BitVec 6) : Chip :=
  let s := c.slc k
  let dom := c.dom (clusterDom cl.toNat)
  let mine := c.collected k cl
  let ok := decide (dom = .off) || mine.isEmpty
    || (!s.announce.getLsbD cl.toNat && (decide (dom = .retain) || mine.all (fun h => !(c.hart h).sweep)))
  if c.flipDone k || s.ack.getLsbD cl.toNat || !ok || c.holds (.announce k) then c
  else if (s.ack ||| ((1 : BitVec 64) <<< cl.toNat)) = 0 - 1 && c.home.any (fun r => r.before && c.homeOf k r) then c
  else
    let b : BitVec 64 := (1 : BitVec 64) <<< cl.toNat
    let others := (List.range 16).any (fun j => decide (j ≠ k) && (c.slc j).woken.getLsbD cl.toNat)
    let c := if s.woken.getLsbD cl.toNat && !others && decide (dom = .on) then c.sweepDom cl.toNat .retain else c
    let a := s.ack ||| b
    let c := c.setSlc k { s with ack := a, announce := s.announce &&& ~~~b, woken := s.woken &&& ~~~b }
    if a = 0 - 1 then (c.traceCtx k).flipComplete k else c

/-- Heal a word of a thread's state in place in a sweep, tracing what it designates during REMAP (R471). -/
def sweepWord (h : Hart) (k : Nat) (w : Word) : M Word := do
  let c ← get
  if c.stale (c.hart h) w || (!isPoison w && c.ptr w && decide (c.ctxPhase k = 4)) then do
    let (c, r) := c.heal k w
    set c
    match r with
    | .word v =>
      if c.ctxPhase k = 4 then set (c.visit k v) else pure ()
      pure v
    | .waits => throw .wait
    | .drained _ => raise { cause := cTagInvalid }
  else pure w

/-- The words of a routine in progress in a sweep (R471). -/
def sweepMicro (h : Hart) (k : Nat) (m : Micro) : M Micro := do
  let us ← m.us.mapM (fun e => do
    let v ← sweepWord h k e.2
    pure (e.1, v))
  let ops ← sweepWord h k m.ops
  let opt ← sweepWord h k m.opt
  let opd ← sweepWord h k m.opd
  let mdr ← sweepWord h k m.mdr
  pure { m with us := us, ops := ops, opt := opt, opd := opd, mdr := mdr }

/-- Every pointer-class word of a thread's state is healed in place, after any pending lazy loads (R471). -/
def sweepRegs (h : Hart) (k : Nat) : M Unit := do
  lazyAll h
  (← hartM h).sweptPregs.forM (fun i => do
    let w := (← hartM h).preg i
    let v ← sweepWord h k w
    if v ≠ w then modM h (fun x => x.putPreg i v) else pure ())
  sweptSprs.forM (fun n => do
    let w := (← hartM h).sprW n
    let v ← sweepWord h k w
    if v ≠ w then modM h (fun x => (x.setSprW n v).dirty (groupOfSpr n)) else pure ())
  let lands ← (← hartM h).landings.mapM (fun l => do
    let v ← sweepWord h k l.word
    pure { l with word := v })
  let tub ← (← hartM h).tub.mapM (fun e => do
    match e.val with
    | .word w => do
      let v ← sweepWord h k w
      pure { e with val := .word v }
    | _ => pure e)
  modM h (fun x => { x with landings := lands, tub := tub })
  let micro ← (match (← hartM h).micro with
    | none => pure none
    | some m => do
      let m ← sweepMicro h k m
      pure (some m) : M (Option Micro))
  let nest ← (← hartM h).nest.mapM (sweepMicro h k)
  modM h (fun x => { x with micro := micro, nest := nest })

/-- A thread's sweep (R471): its older stores are performed and, at a MARK flip or a remap sweep, its pointers healed. -/
def Chip.sweep (c : Chip) (h : Hart) : Chip :=
  let x := c.hart h
  let boundary := match x.micro with | some m => m.atCommit | none => true
  match c.ctxOf x.vmid with
  | none => c.modHart h (fun x => { x with sweep := false })
  | some k =>
    if !x.sweep || !boundary || !c.quietHart h then c
    else
      let d := c.drain h
      let act : M Unit := if d.sweepHeals k then sweepRegs h k else pure ()
      match act d with
      | .ok _ d => d.modHart h (fun x => { x with sweep := false })
      | .error s d => c.stopped d h s x.pc x.pc 0

/-- Scan one word for an engine: a pointer-class word is healed in place (R464, R468); a word that is not well formed or is
poisoned is skipped with an entry (R57, R79). -/
def Chip.scanWord (c : Chip) (k a : Nat) : Chip × Bool :=
  let (c, w) := c.unitRead a
  if isPoison w || !c.wellFormed w then (c.log 4 8 0x4001 (dat a) (dat w.tag.toNat), true)
  else if !c.ptr w then (c, true)
  else
    let (c, r) := c.heal k w
    match r with
    | .word v =>
      let c := if v ≠ w ∧ c.word a = w then c.unitWrite a v else c
      (if c.ctxPhase k = 4 then c.visit k v else c, true)
    | .waits => (c, false)
    | .drained _ => (c, true)

/-- One engine step of tracing: the next queued object is scanned, or else the next word of the root ranges (R464). -/
def Chip.traceStep (c : Chip) (k : Nat) : Chip :=
  let ph := c.ctxPhase k
  if !(ph = 1 && c.flipDone k) && ph ≠ 4 then c
  else
    let s := c.slc k
    match s.queue with
    | o :: rest =>
      let c := c.setSlc k { s with queue := rest, active := true }
      let w : Word := ⟨o.2.zeroExtend 8, 0⟩
      let (c, e) := c.extent k w o.1.toNat
      (List.range e.scan).foldl (fun c i => (c.scanWord k (o.1.toNat + 8 * (e.scanAt + i))).1) c
    | [] =>
      match s.ranges with
      | [] => c
      | (a, n) :: rest =>
        let (c', ok) := c.scanWord k a
        if !ok then c
        else
          let s := c'.slc k
          c'.setSlc k { s with ranges := if n ≤ 8 then rest else (a + 8, n - 8) :: rest, active := true }

/-- MARK records of a window not yet acknowledged or performed (R546). -/
def Chip.marksOut (c : Chip) (w : BitVec 4) : Bool :=
  c.peers.any (fun e => (e.2.gen.unacked ++ e.2.waiting).any (fun f => f.recs.any (fun r =>
    decide (r.op = 0x08) && decide (r.win = w))))
    || c.home.any (fun r => decide (r.rcd.op = 0x08) && decide (r.rcd.win = w))
/-- The window of a context's records. -/
def Chip.ctxWin (c : Chip) (k : Nat) : Nat := (c.windowOf (BitVec.ofNat 12 (c.rf (ctxReg k 0) 11 0))).getD 0
/-- A TERM_QUERY goes to every other member of a job: of a round, by its number, or with number 0 the end of MARK
(DESIGN CHOICE, log 48). -/
def Chip.sendWave (c : Chip) (k : Nat) (n : BitVec 16) : Chip :=
  let c := c.setSlc k { c.slc k with stirred := false, wave := n }
  let c := { c with termReplies := sset c.termReplies k [] [] }
  (sget c.acked k []).foldl (fun c a =>
    c.sendJob (BitVec.ofNat 18 a) { jobRecord 0x0B (c.ctxWin k) (c.ctxEpoch k) 0 with rtag := n }) c

/-- The coordinator's job-wide round (R465, R546): a round goes out once every answer to the one before it has come; one that
finds every member idle, its own trace unstirred since and its own mark requests performed ends MARK. -/
def Chip.jobRound (c : Chip) (k : Nat) : Chip :=
  let s := c.slc k
  let l := sget c.termReplies k []
  let next : BitVec 16 := if s.wave = 0xFFFF then 1 else s.wave + 1
  if s.wave = 0 then c.sendWave k next
  else if l.length < c.rf (ctxReg k 0x40) 43 26 - 1 then c
  else if l.all (fun a => decide (a % 2 = 0)) && !s.stirred && !c.marksOut (BitVec.ofNat 4 (c.ctxWin k)) then
    (c.sendWave k 0).relocatePrep k
  else c.sendWave k next

/-- What a combining round finds of a trace (R465): twice in succession, nothing queued, no heal or mark between. Where
JOB.EN = 1, MARK ends only after the coordinator's round (R465, R546) (DESIGN CHOICE, log 48). -/
def Chip.roundFinds (c : Chip) (k : Nat) : Chip :=
  let ph := c.ctxPhase k
  if !c.ctxEn k || !(ph = 1 || ph = 4) || !c.flipDone k then c
  else
    let s := c.slc k
    if s.active || !s.queue.isEmpty || !s.ranges.isEmpty then c.setSlc k { s with active := false, quiet := 0 }
    else
      let c := c.setSlc k { s with quiet := min (s.quiet + 1) 2 }
      if s.quiet + 1 < 2 then c
      else if ph = 4 then c.endRemap k
      else if !c.jobEn k then c.relocatePrep k
      else if bit (c.reg (ctxReg k 0x40)) 62 then c.jobRound k else c

/-- A combining round of a context (R465): every engine joins it within its bucket (R475), and the last to join completes it. -/
def Chip.termRound (c : Chip) (k : Nat) : Chip :=
  if c.holds (.round k) then c
  else
    let c := c.joinRound k
    if c.holds (.round k) then c else (c.traceCtx k).roundFinds k

/-- A unit's held injection goes (R505). -/
def Chip.unitSent (c : Chip) (src : Nat) (m : HeldMsg) : Chip :=
  let c := (c.takeToken src)
  match m with
  | .job n r => c.sendRecord n r
  | .round k => if c.holds (.round k) then c else (c.traceCtx k).roundFinds k
  | .announce k => c.traceCtx k
  | _ => c

/-- A write of CTX_CFG may end a wait under HOLD (R462). -/
def Chip.holdEnds (c : Chip) (k : Nat) : Chip :=
  if c.ctxPhase k = 2 && !bit (c.reg (ctxReg k 0)) 62 && c.flipDone k && !bit (c.reg (stAt k)) 41 then c.flip k 3 else c

/-- The Sluice copies a marked object of an EVAC region on its own account, unless a heal has copied it (R467). -/
def Chip.copyMarked (c : Chip) (k : Nat) (p : PA) : Chip :=
  let s := c.slc k
  if c.ctxPhase k ≠ 3 || !c.flipDone k || !s.evac.contains (p.toNat / 2 ^ 21) then c
  else if c.moved p then c.drainRegions k
  else match s.objs.find? (fun o => decide (o.1 = p)) with
    | none => c
    | some o => ((c.copyObject k ⟨o.2.zeroExtend 8, 0⟩ p.toNat).1).drainRegions k

/-- Enabling a context (R442, R459): its registers, then the writing that PLANES_CLEARED completes. -/
def Chip.ctxEnable (c : Chip) (k : Nat) : Chip :=
  let c := c.setReg (stAt k) (dat (2 ^ 46))
  let c := c.setSlc k { SluCtx.reset with writing := true }
  (c.harts.filter (fun e => decide (e.2.vmid.toNat = c.rf (ctxReg k 0) 11 0))).foldl
    (fun c e => c.modHart (BitVec.ofNat 11 e.1) (fun x => { x with epoch := 0, good := 1, sweep := false })) c

/-- The planes are clear, and with them the writing that EN started (R459, R462, R469) (DESIGN CHOICE, log 48). -/
def Chip.planesClear (c : Chip) (k : Nat) : Chip :=
  if !c.ctxEn k || c.ctxPhase k ≠ 0 || bit (c.reg (stAt k)) 40 then c
  else
    let s := c.slc k
    let c := if s.writing then
        (List.range (c.heapCount k)).foldl (fun c i => c.setRgn (c.pfirst k + i) (dat (k * 2 ^ 54))) c
      else c
    let c := c.clearRange (c.markBase k) (c.heapCount k * 32768)
    (c.setSlc k { s with writing := false }).setStatus k 40 40 1

/-- Two half-open ranges meet. -/
def overlap (a n b m : Nat) : Bool := decide (a < b + m) && decide (b < a + n)

/-- Whether setting EN is refused (R483). -/
def Chip.enRefused (c : Chip) (k vmid : Nat) : Bool :=
  let ha := c.pfirst k * 2 ^ 21
  let hn := c.heapCount k * 2 ^ 21
  let others := (List.range 16).filter (fun j => decide (j ≠ k) && c.ctxEn j)
  let heaps := (ha, hn) :: others.map (fun j => (c.pfirst j * 2 ^ 21, c.heapCount j * 2 ^ 21))
  others.any (fun j => decide (c.rf (ctxReg j 0) 11 0 = vmid))
    || decide (ha + hn > c.dramEnd)
    || others.any (fun j => overlap ha hn (c.pfirst j * 2 ^ 21) (c.heapCount j * 2 ^ 21))
    || heaps.any (fun e => overlap e.1 e.2 (c.markBase k) (c.heapCount k * 32768)
        || overlap e.1 e.2 (c.cardBase k) (c.heapCount k * 4096))

/-- CMD_c (R462, R473, R485). -/
def Chip.sluCommand (c : Chip) (k : Nat) (v : Datum) : Chip :=
  if !bit v 63 then c
  else
    let op := fld v 1 0
    let st := c.reg (stAt k)
    let err := if op ≥ 2 then 4 else if bit st 42 || bit st 41 then 2
      else if op = 0 then (if c.ctxEn k && decide (c.ctxPhase k = 0) && bit st 40 then 0 else 1)
      else if c.ctxPhase k = 2 && bit (c.reg (ctxReg k 0)) 62 then 0 else 1
    let c := c.setStatus k 37 34 err
    if err ≠ 0 then c
    else
      let phase := if op = 0 then 1 else 3
      if bit v 8 && !reached c.now (c.reg (ctxReg k 0x28)) then
        (c.setStatus k 41 41 1).setSlc k { c.slc k with armedOp := BitVec.ofNat 2 op }
      else c.flip k phase

/-- An armed flip whose time has come (R473). -/
def Chip.armedFlip (c : Chip) (k : Nat) : Chip :=
  if bit (c.reg (stAt k)) 41 && reached c.now (c.reg (ctxReg k 0x28)) then
    c.flip k (if (c.slc k).armedOp = 0 then 1 else 3)
  else c

/-- RGN_CMD_c (R461) (DESIGN CHOICE, log 48). -/
def Chip.rgnCommand (c : Chip) (k : Nat) : Chip :=
  let at_ := ctxReg k 0x48
  let v := c.reg at_
  let op := fld v 62 60
  let i := fld v 16 0
  let r := c.pfirst k + i
  let d := c.rgn r
  let st := rgnState d
  let done := fun (c : Chip) (e : Nat) => c.setRf at_ 56 53 e
  if !c.ctxEn k || (c.slc k).writing then done c 6
  else if op ≥ 6 then done c 4
  else if op = 0 then
    (match (List.range (c.heapCount k)).find? (fun i => decide (rgnState (c.rgn (c.pfirst k + i)) = 0)) with
     | none => done c 1
     | some i =>
       let r := c.pfirst k + i
       let c := c.rgnTo k r 1 true
       let c := c.setRgn r (setFld (c.rgn r) 59 58 (fld v 59 58))
       (done c 0).setRf at_ 50 34 i)
  else if i ≥ c.heapCount k then done c 3
  else
    let ok := if op = 1 then st = 1 else if op = 2 then st = 2 else if op = 3 then st = 5
      else if op = 4 then st = 4 ∧ c.ctxPhase k = 0 else st = 1 ∨ st = 2 ∨ st = 5
    if !decide ok then done c 2
    else
      let c := done c 0
      if op = 1 then c.rgnTo k r 2 true
      else if op = 2 then c.rgnTo k r 5 true
      else if op = 3 then c.rgnTo k r 2 true
      else if op = 4 then c.rgnTo k r 0 true
      else
        let c := c.setRgn r (setFld d 59 58 (fld v 59 58))
        (List.range 4096).foldl (fun c j => c.markCard k (r * 2 ^ 21 + 512 * j)) c

end Sys2Proof.Machine
end

