-- ==== Sys2Proof/Machine/Stope.lean ====
section
/-! DEFINITION. The Stope units' operations at memory (R426–R437), and what a unit reads and writes for a thread: heals
under the view the operation was issued in (R478–R480). -/
namespace Sys2Proof.Machine

/-- EQ of two words (R190): TYPE and datum, and COLOUR where the row has PTR = 0. -/
def Chip.wordEq (c : Chip) (a b : Word) : Bool :=
  decide (a.type = b.type) && decide (a.dat = b.dat) && (c.ptr a || decide (a.colour = b.colour))

/-- A view: the partition, and the epoch and good colour an operation acts under (R443, R478). -/
structure View where
  vmid : BitVec 12
  epoch : BitVec 16
  good : BitVec 2
  deriving DecidableEq, Repr

/-- The present view of a partition (R439, R481). -/
def Chip.viewOf (c : Chip) (vmid : BitVec 12) : View :=
  match c.ctxOf vmid with
  | some k => ⟨vmid, BitVec.ofNat 16 (c.ctxEpoch k), c.ctxGood k⟩
  | none => ⟨vmid, 0, 1⟩

/-- A word recoloured. -/
def recolour (good : BitVec 2) (w : Word) : Word := { w with tag := (good.zeroExtend 8 <<< 6) ||| (w.tag &&& 0x3F) }

/-- A heal for a unit under a view (R439, R478): the context's own heal where the view is current, and otherwise only the
forwarding and colour of the old view, which never waits for a copy (DEDUCED, log 44). -/
def Chip.healUnder (c : Chip) (v : View) (w : Word) : Chip × Healed :=
  match c.ctxOf v.vmid with
  | none => (c, .word (recolour 1 w))
  | some k =>
    if v.epoch.toNat = c.ctxEpoch k then c.heal k w
    else
      let d := match c.heapPtr k w with
        | none => w.dat
        | some p =>
          let st := rgnState (c.rgn (p / 2 ^ 21))
          let h := c.word p
          if (st = 3 ∨ st = 4) ∧ h.tag = 0x07 then h.dat else w.dat
      (c, .word (recolour v.good { w with dat := d }))

/-- A pointer-class word that a unit heals under a view (R478). -/
def Chip.staleUnder (c : Chip) (v : View) (w : Word) : Bool :=
  !isPoison w && c.ptr w &&
    (match c.ctxOf v.vmid with
     | none => decide (w.colour ≠ 1)
     | some k => decide (w.colour ≠ c.ctxGood k) && (decide (v.epoch.toNat = c.ctxEpoch k) || decide (w.colour ≠ v.good)))

/-- What a unit's read gives. -/
inductive Got where
  | word (w : Word)
  | poison
  | waits
  | drained
  deriving DecidableEq, Repr

/-- A unit reads a word for a thread: as the tag of a monotype page, or healed and written back (R335, R451, R478). -/
def Chip.unitFetch (c : Chip) (v : View) (x : Xl) : Chip × Got :=
  let p := x.pa / 8 * 8
  let (c, w) := c.unitRead p x.mono.isNone
  if isPoison w then (c, .poison)
  else
    match x.mono with
    | some t => (c, .word ⟨t.zeroExtend 8, w.dat⟩)
    | none =>
      if c.staleUnder v w then
        match c.healUnder v w with
        | (c, .word u) => (if u ≠ w ∧ x.w ∧ c.word p = w then c.agentWrite (wordCells p u) else c, .word u)
        | (c, .waits) => (c, .waits)
        | (c, .drained _) => (c, .drained)
      else (c, .word w)

/-- Before a unit's store becomes visible, DIRTY is set in the leaves of its translation (R339, R341). -/
def Chip.setDirty (c : Chip) (k : Walker) (r : Regime) (x : Xl) : Chip :=
  match setDirtyBits k r x c with
  | .ok _ d => d
  | .error _ d => d

/-- A unit writes a word for a thread, with the card of a pointer (R335, R455). On a monotype page it writes the datum alone,
but that a poisoned word takes MTYPE (R80, R424). -/
def Chip.unitStore (c : Chip) (v : View) (k : Walker) (r : Regime) (x : Xl) (w : Word) : Chip :=
  let p := x.pa / 8 * 8
  if c.region p ≠ .dram then c.unpopulated .hardware p
  else
    let c := c.setDirty k r x
    match x.mono with
    | some t => c.agentWrite (if isPoison (c.word p) then wordCells p ⟨t.zeroExtend 8, w.dat⟩ else byteCells p (bytesOf 8 w.dat.toNat))
    | none =>
      let c := c.agentWrite (wordCells p w)
      match c.cardFor v.vmid x w with
      | some a => c.writeCard a
      | none => c

/-- A result that is an error with no translation fault behind it. -/
def opErr (cause : Nat) (addr : Datum) : OpResult := .err (BitVec.ofNat 6 cause) addr 0 0 3 none

/-- The atomic operations at memory (R427, R428); none where the operation waits for a heal. No write leaves a word that is not
well formed (R55). -/
def Chip.atomic (c : Chip) (op : Nat) (v : View) (k : Walker) (r : Regime) (x : Xl) (va : Datum) (expect arg : Word) :
    Chip × Option OpResult :=
  let write := fun (c : Chip) (w : Word) (res : OpResult) =>
    if c.producible w then (c.unitStore v k r x w, some res) else (c, some (opErr cTagInvalid va))
  match c.unitFetch v x with
  | (c, .waits) => (c, none)
  | (c, .poison) => (c, some (opErr cPoison va))
  | (c, .drained) => (c, some (opErr cTagInvalid va))
  | (c, .word w) =>
    if op = 0 then
      if w.type = 0x00 then write c { w with dat := w.dat + arg.dat } (.word w)
      else if w.type = 0x01 then
        let s := w.dat.toInt + arg.dat.toInt
        if s < -(2 ^ 63) ∨ s ≥ 2 ^ 63 then (c, some (opErr cAtomRange va))
        else write c { w with dat := BitVec.ofInt 64 s } (.word w)
      else (c, some (opErr cType va))
    else if op = 1 then
      match (if c.staleUnder v expect then c.healUnder v expect else (c, .word expect)) with
      | (c, .waits) => (c, none)
      | (c, .drained _) => (c, some (opErr cTagInvalid va))
      | (c, .word e) => if c.wordEq w e then write c arg (.word w) else (c, some (.word w))
    else if op = 2 then write c arg (.word w)
    else if op = 3 then
      if w.type = 0x00 then write c { w with dat := w.dat ||| arg.dat } (.word w)
      else (c, some (opErr cType va))
    else
      match c.unitFetch v { x with pa := x.pa + 8 } with
      | (c, .waits) => (c, none)
      | (c, .poison) => (c, some (opErr cPoison va))
      | (c, .drained) => (c, some (opErr cTagInvalid va))
      | (c, .word l) =>
        let size := fld arg.dat 47 8
        let old : Word := ⟨(v.good.zeroExtend 8 <<< 6) ||| (arg.dat.extractLsb' 0 6).zeroExtend 8, w.dat⟩
        if w.type ≠ 0x00 ∨ l.type ≠ 0x00 then (c, some (opErr cType va))
        else if !localForm w.dat then (c, some (opErr cTagInvalid va))
        else if size = 0 then (c, some (.word old))
        else if w.dat.toNat + 8 * size ≤ l.dat.toNat then write c { w with dat := w.dat + dat (8 * size) } (.word old)
        else (c, some (.word wNil))

/-- The walker of a controller's Stope units (R434). -/
def stopeWalker (m : Nat) (va : Datum) : Walker := ⟨512 + m, none, va, 2⟩
/-- The view of an operation, and its walker for the leaves of its target, which its core translated at issue (R426). -/
def StopeReq.view (q : StopeReq) : View := ⟨q.regime.vmid.extractLsb' 0 12, q.epoch, q.good⟩
def StopeReq.walker (q : StopeReq) : Walker := ⟨(coreOf q.hart).toNat, none, q.va, 4⟩

/-- Where a walk stands after a step: ended, at a word of the cell it is at, at the next cell, at a cell of another controller, or
waiting. -/
inductive WalkOut where
  | done (r : OpResult)
  | reads (l : List Word)
  | next (cell : Word)
  | forward (m : Nat)
  | waits
  deriving DecidableEq, Repr

/-- The IPA of an address of a translation (R324). -/
def Xl.ipaAt (x : Xl) (a : Datum) : Nat :=
  match x.leaf1 with
  | some e => frameOf e (a.toNat % 2 ^ 55) * 2 ^ 16 + a.toNat % 2 ^ 16
  | none => a.toNat % 2 ^ 55
/-- What a cell on a DEVICE or SIDE_EFFECT page is delivered as: PERMISSION, of the stage whose leaf has the attribute, with the
cell's IPA for stage 2 (R435, R324). -/
def sideFault (x : Xl) (va : Datum) : OpResult :=
  .err (BitVec.ofNat 6 cPerm) va 0 (if x.attr1 then 1 else 2) 2 (if x.attr1 then none else s2ipa false (x.ipaAt va))

/-- Translate a cell for a walk in the regime of its issue, through a controller's cache (R434, R435): the translation, or the
fault it stops with, at the cell's address. A cell must be 8-aligned (R43). -/
def Chip.walkXl (c : Chip) (m : Nat) (r : Regime) (va cell : Datum) : Chip × Except OpResult Xl :=
  if va.toNat % 8 ≠ 0 then (c, .error (opErr cAlign va))
  else match translate (stopeWalker m va) r ⟨2, false, .other⟩ c with
  | .error (.trap t) c => (c, .error (.err (BitVec.ofNat 6 t.cause) cell 0 (BitVec.ofNat 2 t.stage) (BitVec.ofNat 2 t.level) t.ipa))
  | .error _ c => (c, .error (opErr cPoison cell))
  | .ok x c => if x.side || x.device then (c, .error (sideFault x cell)) else (c, .ok x)

/-- The controller that holds the word at an address, which its unit is to translate and read (R434, R437): this one where
nothing in DRAM answers. -/
def Chip.holder (c : Chip) (m : Nat) (r : Regime) (va : Datum) : Nat :=
  match (c.walkXl m r va va).2 with
  | .ok x => if c.region x.pa = .dram then ctlOf x.pa else m
  | .error _ => m

/-- A fault of POISON, or of an address that is no word's, ends a walk; any other is a cell that cannot be read. -/
def unreadable (nth : Bool) (cell : Word) (e : OpResult) : WalkOut :=
  match e with
  | .err cause _ _ _ _ _ => if cause.toNat = cPoison || cause.toNat = cAlign then .done e else if nth then .done e else .done (.word cell)
  | _ => .done e

/-- What a unit's read of a link or a key makes of a walk (R79, R446). -/
def afterRead (g : Got) (cell : Datum) (f : Word → WalkOut) : WalkOut :=
  match g with
  | .waits => .waits
  | .poison => .done (opErr cPoison cell)
  | .drained => .done (opErr cTagInvalid cell)
  | .word w => f w

/-- The operation's target words (R428, R431). -/
def StopeReq.words (q : StopeReq) : List Nat :=
  let p := q.xl.pa / 8
  if q.op = 4 || q.op = 5 then [p, p + 1] else [p]
/-- An earlier operation of the same thread on a word is not yet performed (R431). -/
def Chip.stopeBefore (c : Chip) (q : StopeReq) (ws : List Nat) : Bool :=
  (c.stope.takeWhile (fun s => decide (s ≠ q))).any (fun s => decide (s.hart = q.hart) && s.result.isNone
    && (decide (s.op ≠ 5) || (decide (s.hops = 0) && decide (s.read.length < 2) && s.forward.isNone))
    && s.words.any (fun w => ws.contains w))

/-- A read by a walk, in the order of its thread's operations on that word (R431). -/
def Chip.walkRead (c : Chip) (q : StopeReq) (x : Xl) : Chip × Got :=
  if c.stopeBefore q [x.pa / 8] then (c, .waits) else c.unitFetch q.view x

/-- The next act of a walk in its controller (R433, R437): one word of its cell, or of an ASSQ element, is read. `q.mode` is 0
MEMQ, 1 ASSQ, 2 NTH; the head's translation is that of its issue. In NTH the car is neither link nor
key, and nothing consumes it (R79) (DEDUCED, log 44). -/
def Chip.walkStep (c : Chip) (q : StopeReq) : Chip × WalkOut :=
  let cell := q.cell
  let nth := decide (q.mode = 2)
  if cell.type = 0x04 then (c, .done (.word wNil))
  else if cell.type ≠ 0x08 then (c, .done (opErr cType cell.dat))
  else if nth && decide (q.hops = q.arg.dat.toNat) then (c, .done (.word cell))
  else
    let dest := if q.hops = 0 || q.settled then q.ctl else c.holder q.ctl q.regime cell.dat
    if dest ≠ q.ctl then (c, .forward dest)
    else
      match (if q.hops = 0 then (c, Except.ok q.xl) else c.walkXl q.ctl q.regime cell.dat cell.dat : Chip × Except OpResult Xl) with
      | (c, .error e) => (c, unreadable nth cell e)
      | (c, .ok x) =>
        if q.hops = 4096 then (c, .done (.word cell))
        else match q.read with
        | [] =>
          if nth then
            let (c, w) := c.unitRead x.pa
            (c, .reads [w])
          else
            let (c, g) := c.walkRead q x
            (c, afterRead g cell.dat (fun w => .reads [w]))
        | [car] =>
          match (if x.pa % 2 ^ 16 < 2 ^ 16 - 8 then (c, .ok { x with pa := x.pa + 8 })
              else c.walkXl q.ctl q.regime (cell.dat + 8) cell.dat : Chip × Except OpResult Xl) with
          | (c, .error e) => (c, unreadable nth cell e)
          | (c, .ok y) =>
            let (c, g) := c.walkRead q y
            (c, afterRead g cell.dat (fun cdr =>
              if q.mode = 0 && c.wordEq car q.arg then .done (.word cell)
              else if q.mode = 1 && decide (car.type = 0x08) then .reads [car, cdr]
              else .next cdr))
        | car :: cdr :: _ =>
          let m := c.holder q.ctl q.regime car.dat
          match c.walkXl m q.regime car.dat car.dat with
          | (c, .error e) => (c, unreadable false cell e)
          | (c, .ok z) =>
            let (c, g) := c.walkRead q z
            (c, afterRead g car.dat (fun k => if c.wordEq k q.arg then .done (.word cell) else .next cdr))

/-- Replace a Stope operation in its list. -/
def Chip.setStope (c : Chip) (q r : StopeReq) : Chip := { c with stope := c.stope.map (fun s => if s = q then r else s) }

/-- A walk goes one act on. -/
def Chip.walkOn (c : Chip) (q : StopeReq) : Chip :=
  match c.walkStep q with
  | (d, .waits) => c.keepStalls d
  | (d, .done r) => d.setStope q { q with result := some r }
  | (d, .reads l) => d.setStope q { q with read := l, settled := true }
  | (d, .next cell) => d.setStope q { q with cell := cell, hops := q.hops + 1, read := [], settled := false }
  | (d, .forward m) => d.setStope q { q with forward := some m }

/-- A Stope unit performs an operation, or the next act of a walk that lies in its controller (R427, R433) (DEDUCED, log 44). -/
def Chip.stopePerform (c : Chip) (idx : Nat) : Chip :=
  match c.stope[idx]? with
  | none => c
  | some q =>
    if q.result.isSome || q.forward.isSome then c
    else if c.ctlFailed.getLsbD q.ctl then c.setStope q { q with result := some (opErr cPoison q.va) }
    else if q.op = 5 then c.walkOn q
    else if c.stopeBefore q q.words then c
    else
      match c.atomic q.op.toNat q.view q.walker q.regime q.xl q.va q.expect q.arg with
      | (d, none) => c.keepStalls d
      | (c, some r) => c.setStope q { q with result := some r }

/-- The contexts of a controller's Stope units in use (R237): operations neither ended nor waiting to be forwarded to it. -/
def Chip.stopeBusy (c : Chip) (m : Nat) : Nat := (c.stope.filter (fun q => decide (q.ctl = m) && q.result.isNone)).length
/-- Contexts of a controller's eight Stope units (R237). -/
def stopeContexts : Nat := 128

/-- A walk moves to a unit of the controller that holds its next cell, where a context is free, and goes on there (R437). -/
def Chip.walkForward (c : Chip) (idx : Nat) : Chip :=
  match c.stope[idx]? with
  | none => c
  | some q =>
    match q.forward with
    | none => c
    | some m =>
      if c.stopeBusy m ≥ stopeContexts then c
      else
        let r := { q with ctl := m, forward := none, settled := true }
        let c := c.setStope q r
        if c.ctlFailed.getLsbD m then c.setStope r { r with result := some (opErr cPoison r.cell.dat) } else c.walkOn r

end Sys2Proof.Machine
end

