-- ==== Sys2Proof/Machine/Modes.lean ====
section
/-! DEFINITION. Operating modes and their transitions (R24–R28), what they do to debug sessions and nonces (R610), domain
states (R613–R621), faults that remove a resource (R36, R39), and emergencies (R620, R630). -/
namespace Sys2Proof.Machine

/-- The harts of a cluster that were ever released. -/
def Chip.hartsIn (c : Chip) (k : Nat) : List Hart :=
  (c.harts.filter (fun e => decide (e.1 / 32 = k))).map (fun e => BitVec.ofNat 11 e.1)
/-- Change every hart of a cluster. -/
def Chip.modCluster (c : Chip) (k : Nat) (f : HartSt → HartSt) : Chip := (c.hartsIn k).foldl (fun c h => c.modHart h f) c

/-- A hart lies in a session's scope (R603, R606). -/
def DbgSession.covers (s : DbgSession) (h : Hart) (x : HartSt) : Bool :=
  s.cls = 3 || (s.cls = 2 && decide (x.vmid = s.vmid) && s.clusters.getLsbD (clusterOf h).toNat)

/-- A debug halt ends: the thread goes on from its precise state (R610, R661). -/
def HartSt.dbgResume (x : HartSt) : HartSt :=
  if x.run = .dbg then { x with run := x.dbgBefore, haltReq := false, dbgStep := false }
  else if x.run = .stopped && x.before = .dbg then { x with before := x.dbgBefore, haltReq := false, dbgStep := false }
  else { x with haltReq := false, dbgStep := false }

/-- A session ends (R610): its threads run on, its comparators go, and SESSION_END is written. -/
def Chip.endSession (c : Chip) (s : DbgSession) (why : Nat) : Chip :=
  let c := c.harts.foldl (fun (c : Chip) (e : Nat × HartSt) => c.modHart (BitVec.ofNat 11 e.1) (fun (x : HartSt) =>
    let x := { x with sbp := x.sbp.filter (fun b => decide (b.1 / 4 ≠ s.id))
                      swp := x.swp.filter (fun b => decide (b.1 / 2 ≠ s.id)) }
    if s.covers (BitVec.ofNat 11 e.1) x then x.dbgResume else x)) c
  let c := { c with hdf := { c.hdf with dbgs := c.hdf.dbgs.filter (fun (t : DbgSession) => decide (t.id ≠ s.id)) } }
  c.log 10 0 0x6003 (dat s.id) (dat why)

/-- End every session of the classes that a test picks. -/
def Chip.endSessions (c : Chip) (p : DbgSession → Bool) (why : Nat) : Chip :=
  (c.hdf.dbgs.filter p).foldl (fun c s => c.endSession s why) c

/-- Suspend or resume the D2 sessions in a set of clusters (R610). -/
def Chip.suspend (c : Chip) (mask : BitVec 64) (on : Bool) : Chip :=
  { c with hdf := { c.hdf with dbgs := c.hdf.dbgs.map (fun s =>
    if s.cls = 2 then { s with susp := if on then s.susp ||| (mask &&& s.clusters) else s.susp &&& ~~~mask } else s) } }

/-- The clusters in OFF. -/
def Chip.offClusters (c : Chip) : BitVec 64 :=
  (List.range 64).foldl (fun m k => if c.dom (clusterDom k) = .off then m ||| ((1 : BitVec 64) <<< k) else m) 0

/-- The mode changes (R25, R28, R610): the MODE entry with its trigger as R26 ranks it, nonces cleared, sessions ended or
suspended. A class 2 session does not exist in STANDBY (R609): it ends on entry. -/
def Chip.setMode (c : Chip) (m : Mode) (trigger : Nat) : Chip :=
  if m = c.mode then c
  else
    let old := c.mode
    let c := { c with prev := old, mode := m, hdf := { c.hdf with nonces := [] } }
    let c := c.log 10 0 0x0002 (dat (old.code + m.code * 16)) (dat trigger)
    let c := if m = .off || old = .standby then c.endSessions (fun _ => true) trigger
      else if old = .factoryTest then c.endSessions (fun s => s.cls = 3) trigger
      else if m = .maintenance || m = .standby then c.endSessions (fun s => s.cls = 2) trigger
      else c
    if m = .survival then c.suspend (0 - 1) true
    else if old = .survival then c.suspend (~~~ c.offClusters) false
    else c

/-- A higher trigger of R26 is being acted on: a supply loss or a trip whose commit is in progress (R25, R27). No other
transition begins before its own is complete. -/
def Chip.acting (c : Chip) : Bool :=
  match c.canary.staging with
  | some s => (s.trig ||| s.late).getLsbD 3 || (s.trig ||| s.late).getLsbD 4
  | none => false

/-- What a fault of R36 does to the mode (R25, R26, R39) (DEDUCED, log 59). -/
def Chip.degrade (c : Chip) : Chip :=
  if c.acting then c
  else if c.mode.running then ({ c with entered := c.mode }).setMode .degraded 3
  else if c.mode = .survival || c.mode = .quiesced || c.mode = .boot then { c with faulted := true }
  else c

/-- A block register kept in the always-on island through OFF (R675). -/
def keptOff (b : Blk) (o : Nat) : Bool :=
  (b = .clu && decide (0x100 ≤ o) && decide (o < 0x140)) || (b = .cge && decide (0x100 ≤ o) && decide (o < 0x180))
    || (b = .bld && (decide (o = 0x110) || decide (o = 0x118)))

/-- Block-specific registers of a domain return to reset, but for those held in the always-on island (R675); BLD_STATUS
keeps GEN alone. -/
def Chip.resetDomRegs (c : Chip) (d : Nat) : Chip :=
  let c := { c with pages := c.pages.filter (fun e =>
    match pageAt e.1 with
    | some (b, i) => !(decide (b.dom i = some d) && decide (e.1 % 0x1000 ≥ 0x100) && !keptOff b (e.1 % 0x1000))
    | none => true) }
  if d < 80 ∧ d % 10 < 8 then
    let o := Blk.bld.base (d / 10 * 8 + d % 10) 
    c.setReg (o + 0x118) (dat (fld (c.reg (o + 0x118)) 15 8 * 2 ^ 8))
  else c

/-- The ring of a tile is lost (R644): RING_LOST is written, or waits for the rings to resume. -/
def Chip.loseRing (c : Chip) (t : Nat) : Chip :=
  let last := (sget c.canary.seqs t 0) - 1
  let c := { c with canary := { c.canary with rings := sdel c.canary.rings t } }
  if c.canary.frozen then { c with canary := { c.canary with owed := c.canary.owed ++ [(t, last.toNat)] } }
  else c.logIn 8 3 t 0x0004 (dat last.toNat) 0

/-- A cluster in OFF holds no token, no injection and no contribution of its harts (R493, R500) (DESIGN CHOICE, log 51). -/
def Chip.clearCage (c : Chip) (k : Nat) : Chip :=
  let mine := fun (h : Hart) => decide (h.toNat / 32 = k)
  let rounds := (c.rounds.map (fun e => (e.1, (⟨e.2.contrib.filter (fun x => !mine x.1)⟩ : Round)))).filter
    (fun e => !e.2.contrib.isEmpty)
  { c with
    rounds := rounds
    tokens := c.tokens.filter (fun e => decide (e.1 / 32 ≠ k))
    held := c.held.filter (fun e => match e.2 with | .thread m => !mine m.hart | _ => true)
    cageMsgs := (c.cageMsgs.map (fun f => if f.kind = 0 then { f with parts := f.parts.filter (fun p => !mine p.2.1) } else f)).filter
      (fun f => !f.parts.isEmpty) }

/-- A modified copy whose cache loses power without having been cleaned: written back first, or lost (DESIGN CHOICE, log 33). -/
def Chip.loseCopy (c : Chip) (l : Nat) : Chip :=
  if Config.freeBit c.fresh then c.tick.recall l
  else c.tick.setDropped l ({ c.caches with dirty := c.caches.dirty.filter (fun d => decide (d.line ≠ l)) }.record l)
/-- Caches that lose power hold nothing: `mine` are their modified copies, `sel` their slots (R613). -/
def Chip.emptyCaches (c : Chip) (mine : Dirty → Bool) (sel : Slot → Bool) : Chip :=
  let c := (c.caches.dirty.filter mine).foldl (fun (c : Chip) d => c.loseCopy d.line) c
  c.setCaches (c.caches.empty sel)

/-- What is left of a hart whose domain has lost its contents: the session comparators, which the Headframe keeps and which are
armed again before its first instruction (R610, R612, R665). -/
def HartSt.lost (x : HartSt) : HartSt := { HartSt.reset with sbp := x.sbp, swp := x.swp }
/-- A cluster holds nothing in OFF (R613): harts, buffers, caches, translations, and its Blend store's contents. -/
def Chip.clearCluster (c : Chip) (k : Nat) : Chip :=
  let cores := fun (n : Nat) => decide (n / 8 = k)
  let c := (c.clearCage k).emptyCaches (fun d => cores d.core.toNat && decide (d.at_ ≠ .l3)) (fun s => decide (s.cluster = some k))
  let c := c.forgetAll (fun p => match p with
    | .control core _ _ _ => cores core.toNat
    | _ => false)
  { c with
    harts := (c.harts.map (fun e => if e.1 / 32 = k then (e.1, e.2.lost) else e)).filter
      (fun e => decide (e.1 / 32 ≠ k) || decide (e.2 ≠ HartSt.reset))
    sb := c.sb.filter (fun e => !cores e.core.toNat)
    xfers := sdel c.xfers k
    blendBad := c.blendBad.filter (fun j => decide (j ≠ k))
    tlb := c.tlb.filter (fun t => !(decide (t.owner < 512) && cores t.owner))
    tables := c.tables.filter (fun t => !(decide (t.owner < 512) && cores t.owner)) }

/-- A cluster's power is controlled otherwise than for its sweeps (R472). -/
def Chip.unwake (c : Chip) (k : Nat) : Chip :=
  { c with slu := c.slu.map (fun e => (e.1, { e.2 with woken := e.2.woken &&& ~~~((1 : BitVec 64) <<< k) })) }

/-- The lines that a test picks, of those the caches and directories hold, are recalled, and every copy is dropped (R360, R615). -/
def Chip.recallLines (c : Chip) (sel : Nat → Bool) : Chip :=
  let x := c.caches
  let lines := (x.slots.map (fun s => s.line) ++ x.dirs.map (fun d => d.line) ++ x.dirty.map (fun d => d.line)).eraseDups
  (lines.filter sel).foldl Chip.invalidate c
/-- The set of L3 domains that are ON has changed: every line with another home now is recalled and rehomed (R615). -/
def Chip.rehome (c old : Chip) : Chip := c.recallLines (fun l => decide (c.homeTile l ≠ old.homeTile l))

/-- A controller in OFF has lost its contents (R613), but for the lines that a cache holds modified. -/
def Chip.loseStack (c : Chip) (m : Nat) : Chip :=
  let lost := fun (l : Nat) => decide (ctlOf (64 * l) = m)
  Chip.forgetAll { c with
    mem := c.mem.filter (fun e => !lost (lineOfKey e.1) || (c.caches.modified (lineOfKey e.1)).isSome)
    caches := { c.caches with
      dirty := c.caches.dirty.map (fun d => if lost d.line then { d with old := [] } else d)
      caddy := c.caches.caddy.filter (fun e => decide (ctlOfGranule e.granule ≠ m)) } } (fun p => match p with
    | .datumLine l => lost l
    | .tagLine g | .caddy g _ => decide (ctlOfGranule g = m)
    | .tail pa _ => lost (pa / 64)
    | _ => false)
/-- A rail whose domain is OFF is reported OFF in RAIL_STATUS (R510, R613); one that has failed stays so until BOOT (R509). -/
def Chip.railPower (c : Chip) (d : Nat) (on : Bool) : Chip :=
  let at_ := Blk.cge.base 64 + 0x200
  let lo := if d = 95 then 8 else 0
  if (d = 94 ∨ d = 95) ∧ c.rf at_ (lo + 1) lo ≠ 2 then c.setRf at_ (lo + 1) lo (b2n on) else c
/-- A switched domain changes state (R613, R615, R644, R675, R594, R610). -/
def Chip.setDom (c : Chip) (d : Nat) (s : Dom) : Chip :=
  let was := c.dom d
  let c := if d < 80 ∧ d % 10 < 8 then c.unwake (d / 10 * 8 + d % 10) else c
  if was = s then c
  else
    let c := { c with power := { c.power with doms := sset c.power.doms d s .on } }
    if d < 80 ∧ d % 10 < 8 then
      let k := d / 10 * 8 + d % 10
      let m : BitVec 64 := (1 : BitVec 64) <<< k
      if s = .off then ((c.clearCluster k).resetDomRegs d).suspend m true
      else if s = .on then
        if c.mode = .survival then c else c.suspend m false
      else c
    else if d < 80 ∧ d % 10 = 8 then
      if s = .off then
        let t := d / 10
        let c := c.emptyCaches (fun x => decide (x.at_ = .l3) && (c.caches.copyIn .l3 t x.line).isSome)
          (fun x => x.inside .l3 t)
        (((c.rehome { c with power := { c.power with doms := sset c.power.doms d was .on } }).resetDomRegs d)).loseRing t
      else if s = .on then
        let c := c.rehome { c with power := { c.power with doms := sset c.power.doms d was .on } }
        { c with power := { c.power with firstUse := sset c.power.firstUse (d / 10) 16 16 } }
      else c
    else if d = 93 then
      if s = .off then
        let c := c.resetDomRegs d
        { c with pcie := { c.pcie with linkUp := false, released := false, msix := [], pba := [], loads := [], reads := [],
                                       doeBusy := false, ide := c.pcie.ide.map (fun i => { i with keys := [], secure := false }) } }
      else c
    else if s = .off then
      let c := c.resetDomRegs d
      if 80 ≤ d ∧ d < 89 then c.loseStack (d - 80) else c.railPower d false
    else c.railPower d (s = .on)

/-- Every domain of a list goes to a state. -/
def Chip.setDoms (c : Chip) (l : List Nat) (s : Dom) : Chip := l.foldl (fun c d => c.setDom d s) c
/-- Cluster domains, the L3 and Sluice domains, and all the others by group (R613). -/
def clusterDoms : List Nat := (List.range 64).map clusterDom
def tileDoms : List Nat := (List.range 8).flatMap (fun t => [10 * t + 8, 10 * t + 9])
def memDoms : List Nat := (List.range 9).map (80 + ·)
def portDoms : List Nat := (List.range 4).map (89 + ·)
def railDoms : List Nat := [94, 95]

/-- A thread stops at precise state for a power event (R393, R619); halted threads and threads never released stay. -/
def HartSt.powerStop (x : HartSt) : HartSt :=
  match x.run with
  | .off | .halted | .stopped => x
  | r => { x with run := .stopped, before := r }
/-- A thread stopped for a power event goes on (DESIGN CHOICE, log 55). -/
def HartSt.powerGo (x : HartSt) : HartSt := if x.run = .stopped then { x with run := x.before } else x

/-- A thread is at precise state: nothing it waits for is outstanding and no routine is between commit points (R272). -/
def HartSt.precise (x : HartSt) : Bool :=
  x.wait.isNone && (match x.micro with | some m => m.atCommit | none => true)
/-- Every thread of a cluster can stop. -/
def Chip.clusterPrecise (c : Chip) (k : Nat) : Bool := (c.hartsIn k).all (fun h => (c.hart h).precise)

/-- A cluster's stores drain and its caches are cleaned (R393). -/
def Chip.drainCluster (c : Chip) (k : Nat) : Chip :=
  let c := (c.sb.filter (fun e => decide (e.core.toNat / 8 = k))).foldl Chip.acceptEntry c
  c.setCaches (c.caches.cleanCluster c.cacheEnv k (Config.freeNat c.fresh))

/-- HEADFRAME_EMERGENCY at each partition's lowest running hart, with its EMERGENCY entry (R620, R647). -/
def Chip.emergency (c : Chip) (detail index reading skind sinst : Nat) : Chip :=
  (c.log skind sinst 0x0006 (dat detail) (dat (index * 2 ^ 32 + reading % 2 ^ 32))).emergencyAt detail

/-- A tile is isolated on entry to DEGRADED (R621): every domain of it goes to OFF, its harts' state kept readable. What
becomes of a modified line only its caches held is left open. -/
def Chip.isolateTile (c : Chip) (t cause : Nat) : Chip :=
  let held := c.harts.filter (fun e => decide (e.1 / 256 = t))
  let c := c.log 3 t 0x3004 (dat t) (dat cause)
  let c := c.setDoms ((List.range 10).map (10 * t + ·)) .off
  let c := held.foldl (fun c e => c.setHart (BitVec.ofNat 11 e.1) { e.2 with run := .halted, wait := none }) c
  c.emergencyAt 5

/-- A BLD register. -/
def bldAt (k off : Nat) : Nat := Blk.bld.base k + off
/-- BS0 and BS1 keep U0 and U1 of a service abandoned (R235). -/
def HartSt.keepService (x : HartSt) (m : Micro) : HartSt :=
  ((x.setSprW 0x019 (sget m.us 0 (.raw 0))).setSprW 0x01A (sget m.us 1 (.raw 0))).dirty (some 11)
/-- What a bignum-path operation suspended at a commit point records beside its digits (R217). -/
def HartSt.keepLong (x : HartSt) (fn : Nat) (a b : Word) (pos : Datum) : HartSt :=
  let x := (x.setSpr 0x011 (setFld (setFld (x.sprD 0x011) 0 0 1) 23 16 fn)).setSprW 0x012 a
  (((x.setSprW 0x013 b).setSpr 0x015 x.tp).setSpr 0x014 pos).dirty (some 10)
/-- The OPG function code of a numeric class (R142, R242). -/
def fnOfClass (cls : Nat) : Nat := if cls ≤ 5 then cls else cls + 2
/-- The groups an abandonment writes, 10 and 11, are loaded first (R126); where that load fails, the group is taken as the hart
holds it, and is pending no more (DESIGN CHOICE, log 83). -/
def Chip.loadGroup (c : Chip) (h : Hart) (g : Nat) : Chip :=
  match lazyLoad h g c with
  | .ok _ d => d
  | .error _ _ => c.modHart h (fun x => x.setSpr 0x081 (setFld (x.sprD 0x081) (16 + g) (16 + g) 0))
/-- The progress a routine keeps beside BPROG (R235): COPY and SEARCH in BS0, BS1 and STEP; a GENERIC service's bignum path as
the operation it serves (R217), at a position the manual does not state (DESIGN CHOICE, log 43). -/
def HartSt.keepPhase (x : HartSt) (m : Micro) (pos : Datum) : HartSt :=
  let u := fun (i : Nat) => sget m.us i (.raw 0)
  match m.phase with
  | .service => x.keepService m
  | .generic =>
    let cls := (u 2).dat.toNat
    x.keepLong (fnOfClass cls) (u 0) (if cls = 4 then .raw 0 else u 1) pos
  | _ => x
/-- A routine is abandoned at a commit point (R235, R255): BPROG keeps its entry and the store's GEN (DEDUCED, log 53). -/
def Chip.abandon (c : Chip) (h : Hart) : Chip :=
  let x := c.hart h
  match x.micro with
  | none => c
  | some m =>
    let e := ((x.nest.getLast?).getD m).entry
    let c := ((if m.phase = .generic then c.loadGroup h 10 else c).loadGroup h 11).tick
    let x := c.hart h
    let gen := c.rf (bldAt (clusterOf h).toNat 0x118) 15 8
    let b := setFld (setFld (setFld (x.sprD 0x018) 47 40 gen) 62 49 e.toNat) 63 63 1
    let x := x.keepPhase m (Config.freeDatum c.fresh)
    let b := if m.phase = .service then setFld b 39 0 (sget m.us 2 (.raw 0)).dat.toNat else b
    c.setHart h { (x.putSpr 0x018 b) with micro := none, nest := [] }

/-- The four threads of a core. -/
def coreHarts (core : BitVec 9) : List Hart := (List.range 4).map (fun i => BitVec.ofNat 11 (4 * core.toNat + i))
/-- No thread of the core is between two commit points of a routine (R221, R272). -/
def Chip.corePrecise (c : Chip) (core : BitVec 9) : Bool :=
  (coreHarts core).all (fun h => match (c.hart h).micro with | some m => m.atCommit | none => true)

/-- A core is lost (R36): its four threads halt at precise state, a routine in
progress abandoned at its commit point (R221), and the partition's lowest running hart hears of it. The
manual does not say when the Headframe isolates the core's tile (R621). -/
def Chip.coreLost (c : Chip) (core : BitVec 9) : Chip :=
  if c.coresLost.contains core.toNat then c
  else
    let hs := coreHarts core
    let c := hs.foldl Chip.abandon c
    let parts := (hs.filter (fun h => decide ((c.hart h).run ≠ .off))).map (fun h => (c.hart h).vmid)
    let c := hs.foldl (fun c h => if (c.hart h).run = .off then c
      else c.modHart h (fun x => { x with run := .halted, wait := none })) c
    let c := { c with coresLost := c.coresLost ++ [core.toNat], faulty := c.faulty.filter (fun j => decide (j ≠ core.toNat)) }
    let c := c.log 2 (core.toNat / 8) 0x2003 (dat core.toNat) 0
    let mons := parts.eraseDups.flatMap c.monitorOf
    let c := c.machineCheck mons (dat (4 * core.toNat)) 0x2003 (trigWord 2 (core.toNat / 8) 0x2003)
    let was := c.mode
    let c := c.degrade
    if was.running && Config.freeBit c.fresh then c.tick.isolateTile (core.toNat / 64) 0x2003 else c.tick

/-- A controller or stack fails (R36): it returns POISON, its Stope units stop, and its domain is OFF in DEGRADED (R618). -/
def Chip.controllerFailed (c : Chip) (m : Nat) : Chip :=
  if c.ctlFailed.getLsbD m then c
  else
    let c := { c with ctlFailed := c.ctlFailed ||| BitVec.ofNat 9 (2 ^ m), fc := sdel c.fc m }
    let c := c.log 5 m 0x1005 (dat m) 0
    let c := c.machineCheck c.monitors 0 0x1005 (trigWord 5 m 0x1005)
    let c := c.degrade
    if c.mode = .degraded then c.setDom (80 + m) .off else c

/-- Ports that have failed (DEDUCED, log 59). -/
def Chip.portsFailed (c : Chip) : Nat :=
  ((List.range 4).filter (fun p => c.portFailed.getLsbD p)).length

/-- The frequency limit of a tile and what sets it (R622). -/
def Chip.freqLimits (c : Chip) (t : Nat) : List Nat :=
  [sget c.power.firstUse t 16, sget c.power.thermal t 24, sget c.power.power t 24, if c.mode = .survival then 8 else 24]
/-- PWR_FREQ_t as it reads (R622). -/
def Chip.freqWord (c : Chip) (t : Nat) : Datum :=
  let l := c.freqLimits t
  let lim := l.foldl min 24
  let req := c.rf (Blk.pwr.base 0 + 0x130 + 8 * t) 4 0
  let cause := (l.zipIdx.foldl (fun a e => if e.1 = lim ∧ lim < 24 then a + 2 ^ e.2 else a) 0)
    + (if sget c.power.droops t 0 ≠ 0 then 16 else 0)
  dat (cause * 2 ^ 32 + min req lim * 2 ^ 24 + lim * 2 ^ 16 + req)

end Sys2Proof.Machine
end

