-- ==== Sys2Proof/Machine/Drift.lean ====
section
/-! DEFINITION. The receiving side of Drift: ports and planes (R534, R547), frames and streams (R526–R532), and peers
(R525). -/
namespace Sys2Proof.Machine

/-- PORT_STATUS of a port (R547). -/
def portAt (p : Nat) : Nat := Blk.dft.base p + 0x100

/-- A frame a port discards is counted in its page (R520, R526) (DEDUCED, log 45). -/
def Chip.dropFrame (c : Chip) (p : Nat) : Chip := c.err (Blk.dft.base p) .hardware 9 0

/-- An outstanding operation has already been given its completion. -/
def Chip.completed (c : Chip) (o : RemoteOp) : Bool :=
  c.home.any (fun r => decide (r.rcd.rtag = o.rtag) && decide (r.src = o.node) && decide (r.rcd.op.toNat ≥ 0x80))

/-- Every outstanding operation that a test picks completes with an error (R521, R525, R532, R534). -/
def Chip.failOps (c : Chip) (p : RemoteOp → Bool) (err : Nat) : Chip :=
  (c.remote.filter (fun o => p o && !c.completed o)).foldl (fun c o => c.complete o err []) c

/-- Operations to one other node fail. -/
def Chip.failPeer (c : Chip) (n : BitVec 18) (err : Nat) : Chip :=
  if n = c.ownNode then c else c.failOps (fun o => decide (o.node = n)) err
/-- Operations to every other node fail. -/
def Chip.failOthers (c : Chip) (err : Nat) : Chip := c.failOps (fun o => decide (o.node ≠ c.ownNode)) err

/-- No port is usable (R534). -/
def Chip.noPort (c : Chip) : Bool := !(List.range 4).any c.portUp

/-- Send an unacknowledged frame again on a plane other than the one last used where there is one (R531, R534); the port
counts it. -/
def Chip.resend (c : Chip) (n : BitVec 18) (cage : Bool) (f : Frame) : Chip :=
  let p := c.peer n
  let planes := c.planesTo p
  let after := planes.filter (fun k => decide (k > f.plane.toNat)) ++ planes.filter (fun k => decide (k < f.plane.toNat))
    ++ planes.filter (fun k => decide (k = f.plane.toNat))
  match after with
  | [] => c
  | k :: _ =>
    let s := p.stream cage
    let g := { f with plane := BitVec.ofNat 2 k, ack := s.expect, sack := s.sack }
    let c := c.setPeer n (p.setStream cage { s with unacked := s.unacked.map (fun u => if u.seq = f.seq then g else u) })
    let c := c.setRf (portAt k) 47 32 (min (c.rf (portAt k) 47 32 + 1) 0xFFFF)
    c.emitOn k g

/-- Every frame last sent on a port is sent again on the peers' other planes (R534). -/
def Chip.resendPort (c : Chip) (p : Nat) : Chip :=
  (c.peers.map (fun e => (BitVec.ofNat 18 e.1 : BitVec 18))).foldl (fun c n =>
    [false, true].foldl (fun (c : Chip) (cage : Bool) =>
      (((c.peer n).stream cage).unacked.filter (fun f => decide (f.plane.toNat = p))).foldl
        (fun c f => c.resend n cage f) c) c) c

/-- What the loss of the last usable port brings (R534). -/
def Chip.portGone (c : Chip) (p : Nat) : Chip :=
  let c := c.resendPort p
  if c.noPort then c.failOthers 1 else c

/-- A link comes up (R534, R547): a failed port and a port whose domain is not ON stay as they are. -/
def Chip.portLinkUp (c : Chip) (p speed : Nat) (preempt : Bool) : Chip :=
  let st := c.reg (portAt p)
  if c.dom (89 + p) ≠ .on || c.portFailed.getLsbD p || bit st 16 || !(speed = 1 || speed = 2) then c
  else
    let pre := preempt && bit (c.reg (dft4 + 0x100)) 62
    let st := setFld (setFld (setFld (setFld st 21 20 speed) 17 17 (b2n pre)) 16 16 1) 9 8 1
    c.setReg (portAt p) st

/-- The status of a port whose link is down. -/
def downStatus (st : Datum) (state : Nat) : Datum := setFld (setFld (setFld (setFld st 21 20 0) 17 17 0) 16 16 0) 9 8 state

/-- A link drops (R534): its unacknowledged frames move at once. -/
def Chip.portLinkDown (c : Chip) (p : Nat) : Chip :=
  if !bit (c.reg (portAt p)) 16 then c
  else (c.setReg (portAt p) (downStatus (c.reg (portAt p)) 0)).portGone p

/-- A link down for 10 ms: the port fails until the next BOOT (R534, R29, R36). One failed port is hidden, two or three
are DEGRADED, and four are a machine check. -/
def Chip.portFail (c : Chip) (p : Nat) : Chip :=
  let st := c.reg (portAt p)
  if c.portFailed.getLsbD p || bit st 16 || c.dom (89 + p) ≠ .on then c
  else
    let c : Chip := { ((c.setReg (portAt p) (downStatus st 2)).irq dft4 50) with portFailed := c.portFailed ||| BitVec.ofNat 4 (2 ^ p) }
    let c := c.log 7 p 0x5001 (dat p) 0
    let n := c.portsFailed
    let c := if n ≥ 2 then
        (if n = 4 then c.machineCheck c.monitors 0 0x5001 (trigWord 7 p 0x5001)
         else
          let who := if n = 2 then (List.range 4).filter (fun q => c.portFailed.getLsbD q) else [p]
          who.foldl (fun c q => c.err (Blk.dft.base q) .hardware 9 0) c).degrade
      else c
    c.portGone p

/-- Frames of a stream that ACK and SACK cover leave it (R531); progress clears the plane's count of expiries. -/
def Chip.takeAck (c : Chip) (n : BitVec 18) (f : Frame) : Chip :=
  let p := c.peer n
  let cage := decide (f.cls = 0)
  let s := p.stream cage
  let covered := fun (u : Frame) =>
    let d := (f.ack - u.seq).toNat
    let e := (u.seq - f.ack).toNat
    (decide (1 ≤ d) && decide (d < 2 ^ 31)) || (decide (1 ≤ e) && decide (e ≤ 32) && f.sack.getLsbD (e - 1))
  let gone := s.unacked.filter covered
  let s := { s with unacked := s.unacked.filter (fun u => !covered u) }
  let p := p.setStream cage s
  let p := { p with gen := { p.gen with tries := p.gen.tries.filter (fun e => !gone.any (fun u => decide (u.plane.toNat = e.1))) } }
  (c.setPeer n p).flushWaiting n

/-- What every received frame passes (R519–R521, R526): its EtherType, version, type, node and plane. -/
def Chip.frameOk (c : Chip) (p : Nat) (f : Frame) (typ : Nat) : Bool :=
  c.portUp p && decide (f.etype.toNat = c.rf (dft4 + 0x100) 43 28) && decide (f.ver = 1) && decide (f.typ.toNat = typ) && decide (f.dst = c.ownNode) && decide (f.src ≠ c.ownNode)
    && decide (f.plane.toNat = p) && decide (f.recs.length ≤ 15)
/-- The frame's SESSION is the one last accepted from its peer (R529). -/
def Chip.sessionOk (c : Chip) (f : Frame) : Bool := (c.peer f.src).enabled && decide ((c.peer f.src).theirs = some f.session)

/-- Receive a frame of a type: where it passes, act; else discard it, counting it (R520, R526) (DEDUCED, log 45). -/
def Chip.recv (c : Chip) (p : Nat) (f : Frame) (typ : Nat) (act : Chip → Chip) : Chip :=
  if c.frameOk p f typ then act c
  else if c.portUp p then c.dropFrame p else c

/-- A record operation the module knows (R528). -/
def knownOp (o : Nat) : Bool :=
  (decide (1 ≤ o) && decide (o ≤ 0x0B)) || (decide (0x81 ≤ o) && decide (o ≤ 0x87)) || decide (o = 0x8B)

/-- Apply the records of a frame (R528, R530): reserved operations are discarded and counted. -/
def Chip.applyFrame (c : Chip) (p : Nat) (f : Frame) : Chip :=
  f.recs.foldl (fun c r => if knownOp r.op.toNat then { c with home := c.home ++ [⟨f.src, decide (f.cls = 0), r, false, none⟩] }
    else c.dropFrame p) c

/-- Apply the frames that are next in sequence (R530). -/
def Chip.advanceStream (c : Chip) (p : Nat) (n : BitVec 18) (cage : Bool) : Nat → Chip
  | 0 => c
  | k + 1 =>
    let q := c.peer n
    let s := q.stream cage
    match s.ahead.find? (fun f => decide (f.seq = s.expect)) with
    | none => c
    | some f =>
      let s' := { s with expect := s.expect + 1, ahead := s.ahead.filter (fun g => decide (g.seq ≠ f.seq)) }
      ((c.setPeer n (q.setStream cage s')).applyFrame p f).advanceStream p n cage k

/-- An ACK frame on the stream of a class (R526, R530) (DEDUCED, log 45). -/
def Chip.sendAck (c : Chip) (n : BitVec 18) (cls : BitVec 2) : Chip := c.emitTo n (c.mkFrame n 1 cls [])

/-- A DATA frame (R530): accepted within 64 frames ahead of ACK, applied in order once each, acknowledged always. While
QUIESCED it is neither applied nor acknowledged (R619). -/
def Chip.dataFrame (c : Chip) (p : Nat) (f : Frame) : Chip :=
  c.recv p f 0 (fun c =>
    let cage := decide (f.cls = 0)
    let s := (c.peer f.src).stream cage
    if c.mode = .quiesced || !c.sessionOk f || !s.synced then c
    else
      let c := c.takeAck f.src f
      let q := c.peer f.src
      let s := q.stream cage
      let d := (f.seq - s.expect).toNat
      let c := if d ≤ 64 && !s.ahead.any (fun g => decide (g.seq = f.seq)) then
          (c.setPeer f.src (q.setStream cage { s with ahead := s.ahead ++ [f] })).advanceStream p f.src cage 65
        else c
      c.sendAck f.src f.cls)

/-- An ACK frame (R531). -/
def Chip.ackFrame (c : Chip) (p : Nat) (f : Frame) : Chip :=
  c.recv p f 1 (fun c => if c.sessionOk f then c.takeAck f.src f else c)

/-- The peer's session becomes known, its stream's first sequence number with it; a new session where another was known
means the peer has restarted, and what was outstanding to it completes with HOME_RESET (R529, R532) (DEDUCED, log 45). -/
def Chip.meetSession (c : Chip) (f : Frame) : Chip :=
  let n := f.src
  let p := c.peer n
  let known := decide (p.theirs = some f.session)
  let c := if !known && p.theirs.isSome then
      let c := c.failPeer n 0x0E
      c.setPeer n { c.peer n with
        waiting := []
        gen := { (c.peer n).gen with unacked := [], tries := [] }
        cage := { (c.peer n).cage with unacked := [], tries := [] } }
    else c
  let p := c.peer n
  let clear := fun (s : Stream) => if known then s else { s with expect := 0, ahead := [], synced := false }
  let p := { p with theirs := some f.session, gen := clear p.gen, cage := clear p.cage }
  let cage := decide (f.cls = 0)
  let s := p.stream cage
  c.setPeer n (if s.synced then p else p.setStream cage { s with expect := f.seq, synced := true })

/-- A SYN (R529): answered with SYN_ACK carrying this module's session for the peer, drawn here where it has none. -/
def Chip.synFrame (c : Chip) (p : Nat) (f : Frame) : Chip :=
  c.recv p f 2 (fun c =>
    if !(c.peer f.src).enabled then c
    else
      let c := c.meetSession f
      let q := c.peer f.src
      let c := if q.session ≠ 0 then c else
        let r := Config.random c.fresh
        c.tick.setPeer f.src { q with
          session := r.extractLsb' 0 16
          gen := { q.gen with nextSeq := r.extractLsb' 16 32 }
          cage := { q.cage with nextSeq := r.extractLsb' 48 32 } }
      let c := c.setPeer f.src { c.peer f.src with up := true }
      (c.emitTo f.src (c.mkFrame f.src 3 f.cls [])).flushWaiting f.src)

/-- A SYN_ACK (R529): with a session known already, one of another session is discarded. -/
def Chip.synAckFrame (c : Chip) (p : Nat) (f : Frame) : Chip :=
  c.recv p f 3 (fun c =>
    let q := c.peer f.src
    if !q.enabled || q.session = 0 || (q.theirs.isSome && q.theirs ≠ some f.session) then c
    else
      let c := c.meetSession f
      (c.setPeer f.src { c.peer f.src with up := true }).takeAck f.src f)

/-- A PROBE is answered on its plane (R534). -/
def Chip.probeFrame (c : Chip) (p : Nat) (f : Frame) : Chip :=
  c.recv p f 4 (fun c => if c.sessionOk f then c.emitOn p (c.mkFrame f.src 5 f.cls []) else c)

/-- PROBE_ACK marks its plane up again (R534). -/
def Chip.probeAckFrame (c : Chip) (p : Nat) (f : Frame) : Chip :=
  c.recv p f 5 (fun c =>
    if c.sessionOk f then
      let q := c.peer f.src
      c.setPeer f.src { q with down := q.down &&& ~~~((1 : BitVec 4) <<< p)
                               gen := { q.gen with tries := sdel q.gen.tries p } }
    else c)

/-- A plane marked down for a peer is probed (R534). -/
def Chip.planeProbe (c : Chip) (n : BitVec 18) (k : Nat) : Chip :=
  let q := c.peer n
  if q.enabled && q.down.getLsbD k && q.planes.getLsbD k && c.portUp k then c.emitOn k (c.mkFrame n 4 1 []) else c

/-- An RTO expiry (R531, R534): the frame goes again; three successive on one plane mark it down for the peer
(DESIGN CHOICE, log 14). -/
def Chip.retransmit (c : Chip) (n : BitVec 18) (cage : Bool) (seq : BitVec 32) : Chip :=
  let q := c.peer n
  match (q.stream cage).unacked.find? (fun f => decide (f.seq = seq)) with
  | none => c
  | some f =>
    let k := f.plane.toNat
    let t := sget q.gen.tries k 0 + 1
    let q := { q with gen := { q.gen with tries := sset q.gen.tries k t 0 } }
    let q := if t ≥ 3 then { q with down := q.down ||| ((1 : BitVec 4) <<< k) } else q
    (c.setPeer n q).resend n cage f

/-- A peer is forgotten: no session, nothing unacknowledged, nothing waiting. -/
def Chip.dropPeer (c : Chip) (n : BitVec 18) : Chip :=
  let q := c.peer n
  c.setPeer n { q with session := 0, theirs := none, up := false, gen := Stream.reset, cage := Stream.reset, waiting := [] }

/-- No progress for LIMIT_MS (R532). -/
def Chip.peerUnreachable (c : Chip) (n : BitVec 18) : Chip :=
  let q := c.peer n
  if n = c.ownNode || (q.gen.unacked.isEmpty && q.cage.unacked.isEmpty && q.waiting.isEmpty) then c
  else (((c.failPeer n 1).dropPeer n).irq dft4 49)

/-- PEER_CMD, as written (R525) (DEDUCED, log 45). -/
def Chip.peerCommand (c : Chip) : Chip :=
  let v := c.reg (dft4 + 0x110)
  let n : BitVec 18 := BitVec.ofNat 18 (fld v 17 0)
  let op := fld v 62 60
  let q := c.peer n
  let err := if n = c.ownNode then 1 else if !c.driftEn || c.reg (dft4 + 0x108) = 0 then 2 else if op ≥ 4 then 3 else 0
  let c := c.setRf (dft4 + 0x110) 54 51 err
  if err ≠ 0 then c
  else if op = 0 then c.setPeer n { q with enabled := true, planes := BitVec.ofNat 4 (fld v 59 56) }
  else if op = 1 then
    let c := (c.failPeer n 2).dropPeer n
    c.setPeer n { c.peer n with enabled := false }
  else if op = 2 then
    let c := (c.failPeer n 0x0E).dropPeer n
    if q.enabled then c.sendSyn n else c
  else c.setPeer n { q with planes := BitVec.ofNat 4 (fld v 59 56) }

/-- DRIFT_CFG.EN is cleared: the ports stop and operations to other nodes complete with NODE_UNREACHABLE (R521, R524). -/
def Chip.driftStop (c : Chip) : Chip := c.failOthers 1

end Sys2Proof.Machine
end

