-- ==== Sys2Proof/Machine/Home.lean ====
section
/-! DEFINITION. What a home module does with accepted records: remote operations (R523, R535, R481), active messages and
roles (R540–R545), and job records (R546). -/
namespace Sys2Proof.Machine

/-- A record that may be taken now: none of its source and stream stands before it (R530). -/
def Chip.homeAt (c : Chip) (idx : Nat) : Option HomeRec :=
  match c.home[idx]? with
  | none => none
  | some r => if (c.home.take idx).any (fun s => decide (s.src = r.src) && decide (s.cage = r.cage)) then none else some r
/-- The record leaves its list. -/
def Chip.dropHome (c : Chip) (idx : Nat) : Chip := { c with home := c.home.eraseIdx idx }

/-- Window c is open; its regime at the home, at U; and the VA of an address in it (R522, R523). -/
def Chip.winOpen (c : Chip) (w : Nat) : Bool := bit (c.reg (gwinCtlAt w)) 63
def Chip.homeRegime (c : Chip) (w : Nat) : Regime :=
  ⟨0, c.reg (gwinS1At w), c.reg (gwinS2At w),
    dat (b2n (bit (c.reg (gwinCtlAt w)) 61) + 2 * b2n (bit (c.reg (gwinCtlAt w)) 62)), 0⟩
def Chip.homeVa (c : Chip) (w : Nat) (a : Datum) : Datum :=
  (BitVec.ofNat 55 (c.rf (gwinCtlAt w) 8 0 * 2 ^ 46 + a.toNat % 2 ^ 46)).signExtend 64
def Chip.winVmid (c : Chip) (w : Nat) : BitVec 12 := BitVec.ofNat 12 (c.rf (gwinS2At w) 11 0)

/-- The Drift error code of a trap cause at the home (R538); no code names a POISON met in a walk (DEDUCED, log 47). -/
def homeCode (cause : Nat) : Nat :=
  if cause = cPerm then 5 else if cause = cWalkDev then 6 else if cause = cType then 7 else if cause = cAtomRange then 8
  else if cause = cTagInvalid then 9 else if cause = cMono then 0xA else 4

/-- Answer a record (R527, R528): a response with an error carries no words. -/
def Chip.reply (c : Chip) (r : HomeRec) (err : Nat) (words : List Word) : Chip :=
  c.sendRecord r.src { op := r.rcd.op ||| 0x80, win := r.rcd.win, rtag := r.rcd.rtag, err := BitVec.ofNat 16 err,
                       hart := r.rcd.hart, addr := 0, words := if err = 0 then words else [] }

/-- The type that stands for an object whose pointer's type is not known here: a header tells (R441). -/
def Chip.headType (c : Chip) (p : Nat) : BitVec 6 := if (c.word p).type = 0x10 then 0x09 else 0x08
/-- The nearest marked or forwarded object at or below a heap PA of a region being emptied. -/
def Chip.objectBelow (c : Chip) (k p : Nat) : Option (Nat × BitVec 6) :=
  let first := p / 2 ^ 21 * 2 ^ 21
  let marked := ((c.slc k).objs.filter (fun o => decide (first ≤ o.1.toNat) && decide (o.1.toNat ≤ p))).map
    (fun o => (o.1.toNat, o.2))
  let moved := (c.mem.filter (fun e => decide (tagBase + first / 8 ≤ e.1) && decide (e.1 ≤ tagBase + p / 8)
    && decide (e.2 = 0x07))).map (fun e =>
      let o := (e.1 - tagBase) * 8
      (o, c.headType ((c.heapPa k (c.word o).dat).getD o)))
  (moved ++ marked).foldl (fun b o => match b with
    | none => some o
    | some a => if a.1 ≤ o.1 then some o else b) none
/-- The object a word of such a region lies in: a GPTR's record gives only the word's address (R176), so it is the object whose
extent covers the word, and where none does the word is the first of its own (DESIGN CHOICE, log 47). -/
def Chip.objectAt (c : Chip) (k p : Nat) : Chip × Nat × BitVec 6 :=
  match c.objectBelow k p with
  | none => (c, p, c.headType p)
  | some (o, t) =>
    let h := c.word o
    let (c, e) := c.extent k ⟨t.zeroExtend 8, 0⟩ (if h.tag = 0x07 then (c.heapPa k h.dat).getD o else o)
    if p < o + 8 * e.words then (c, o, t) else (c, p, c.headType p)

/-- Where a remote access to a heap PA goes (R481): at the copy of an object that has moved or must move. -/
inductive Fwd where
  | at_ (p : Nat)
  | waits
  | drained
  deriving DecidableEq, Repr

/-- Forward a remote access (R481). An access accepted before a flip still in progress waits for no copy. -/
def Chip.forwardHome (c : Chip) (v : View) (before : Bool) (p : Nat) : Chip × Fwd :=
  match c.ctxOf v.vmid with
  | none => (c, .at_ p)
  | some k =>
    let st := rgnState (c.rgn (p / 2 ^ 21))
    if !c.inHeap k p || !(st = 3 || st = 4) then (c, .at_ p)
    else
      let (c, o, t) := c.objectAt k p
      let h := c.word o
      if h.tag = 0x07 then (c, match c.heapPa k h.dat with | some q => .at_ (q + (p - o)) | none => .drained)
      else if st = 4 then (c.log 4 8 0x4003 (dat o) (dat k), .drained)
      else if before then (c, .at_ p)
      else if !c.flipDone k || c.ctxPhase k ≠ 3 then (c, .waits)
      else
        match c.copyObject k ⟨t.zeroExtend 8, 0⟩ o with
        | (c, some q) => (c, .at_ (q + (p - o)))
        | (c, none) => (c, .waits)

/-- The view a remote access is performed under (R481, R535): one accepted before a flip in progress acts on words as that flip
found them, and its result is healed under the home's epoch. -/
def Chip.homeView (c : Chip) (vmid : BitVec 12) (before : Bool) : View :=
  let v := c.viewOf vmid
  if before then { v with epoch := v.epoch - 1, good := if v.good = 1 then 3 else v.good - 1 } else v

/-- What the home answers a remote operation; that it is performed and its result waits for a heal; or that it waits. -/
inductive HomeOut where
  | reply (err : Nat) (words : List Word)
  | performed (w : Word)
  | waits
  deriving DecidableEq, Repr

/-- The walker of the home's remote accesses. -/
def homeWalker (va : Datum) (kind : Nat) : Walker := ⟨600, none, va, kind⟩
/-- A result is healed under the home's epoch before the reply (R446, R481). -/
def Chip.homeHeal (c : Chip) (vmid : BitVec 12) (u : Word) : Chip × HomeOut :=
  let v := c.viewOf vmid
  if c.staleUnder v u then
    match c.healUnder v u with
    | (c, .word w) => (c, .reply 0 [w])
    | (_, .waits) => (c, .performed u)
    | (c, .drained _) => (c, .reply 9 [])
  else (c, .reply 0 [u])

/-- Perform a remote operation at the home (R535) (DEDUCED, log 47). -/
def Chip.homeDo (c : Chip) (r : HomeRec) : Chip × HomeOut :=
  let w := r.rcd.win.toNat
  let op := r.rcd.op.toNat
  if !c.winOpen w then (c, .reply 3 [])
  else match r.got with
  | some u => c.homeHeal (c.winVmid w) u
  | none =>
    let va := c.homeVa w r.rcd.addr
    let kind := if op = 1 then 2 else if op = 2 then 3 else 4
    let v := c.homeView (c.winVmid w) r.before
    let arg := if op = 4 then (r.rcd.words[1]?).getD (.raw 0) else (r.rcd.words[0]?).getD (.raw 0)
    let k := homeWalker va kind
    let reg := c.homeRegime w
    match translate k reg ⟨kind, decide (op ≠ 1), .other⟩ c with
    | .error (.trap t) c => (c, .reply (homeCode t.cause) [])
    | .error _ c => (c, .waits)
    | .ok x c =>
      let tagged := decide (op = 2) || decide (op = 4) || decide (op = 5)
      let mono := match x.mono with | some t => tagged && decide (arg.type ≠ t) | none => false
      if tagged && !c.producible arg then (c, .reply 9 [])
      else if mono then (c, .reply 0xA [])
      else
        match c.forwardHome v r.before x.pa with
        | (c, .waits) => (c, .waits)
        | (c, .drained) => (c, .reply 9 [])
        | (c, .at_ p) =>
          let x := { x with pa := p }
          if op = 1 then
            match c.unitFetch v x with
            | (c, .waits) => (c, .waits)
            | (c, .drained) => (c, .reply 9 [])
            | (c, .poison) => (c, .reply 0 [⟨poisonTag, (c.word (p / 8 * 8)).dat⟩])
            | (c, .word u) => c.homeHeal (c.winVmid w) u
          else if op = 2 then (c.unitStore v k reg x arg, .reply 0 [])
          else
            match c.atomic (op - 3) v k reg x va ((r.rcd.words[0]?).getD (.raw 0)) arg with
            | (_, none) => (c, .waits)
            | (c, some (.word u)) => c.homeHeal (c.winVmid w) u
            | (c, some (.err cause _ _ _ _ _)) =>
              if cause.toNat = cPoison then (c, .reply 0 [⟨poisonTag, (c.word (p / 8 * 8)).dat⟩])
              else (c, .reply (homeCode cause.toNat) [])

/-- Take a remote operation from the list: a wait leaves it there (R467, R481), as does a result not yet healed. Nothing is taken while QUIESCED (R619). -/
def Chip.homeOp (c : Chip) (idx : Nat) (p : Nat → Bool) : Chip :=
  match c.homeAt idx with
  | none => c
  | some r =>
    if !p r.rcd.op.toNat || c.mode = .quiesced then c
    else
      match c.homeDo r with
      | (d, .waits) => c.keepStalls d
      | (d, .performed u) => if r.got.isSome then c else { d with home := d.home.set idx { r with before := false, got := some u } }
      | (d, .reply e l) => (d.dropHome idx).reply r e l

/-- Slots of a ring, its base, and whether it is closed (R541). -/
def ringSlots (d : Datum) : Nat := 2 ^ (fld d 47 44 + 4)
def ringBase (d : Datum) : Nat := fld d 39 0 * 2 ^ 12
def ringClosed (d : Datum) : Bool := decide (fld d 47 44 = 0) || decide (fld d 47 44 > 12)
def qRingAt (q : Nat) : Nat := dft4 + 0x300 + 0x10 * q
def qPtrAt (q : Nat) : Nat := dft4 + 0x308 + 0x10 * q

/-- Write the words of a slot, the rest RAW 0. -/
def Chip.putSlot (c : Chip) (a n : Nat) (ws : List Word) : Chip :=
  (List.range n).foldl (fun c i => c.unitWrite (a + 8 * i) ((ws[i]?).getD (.raw 0))) c

/-- A pointer register's TAIL advanced. -/
def tailUp (p : Datum) : Datum := setFld p 63 32 ((fld p 63 32 + 1) % 2 ^ 32)
/-- Slots written and not yet consumed. -/
def ringHeld (p : Datum) : Nat := (fld p 63 32 + 2 ^ 32 - fld p 31 0) % 2 ^ 32

/-- The header of a message slot (R542). -/
def slotHead (r : HomeRec) (state : Nat) : Word :=
  .raw (dat (r.src.toNat * 2 ^ 46 + r.rcd.hart.toNat * 2 ^ 35 + r.rcd.words.length % 16 * 2 ^ 31 + r.rcd.err.toNat * 2 ^ 15
    + state))

/-- Deliver a SEND (R542, R543): closed or foreign endpoints, a word no instruction may produce (R56, R538), then a stale role,
then a full ring refuse it (DEDUCED, log 47). -/
def Chip.deliverSend (c : Chip) (r : HomeRec) : Chip :=
  let w := r.rcd.win.toNat
  let e := r.rcd.addr
  let queue := bit e 45
  let i := fld e 10 0
  if !c.winOpen w then c.reply r 3 []
  else if queue && i ≥ 48 then c.reply r 0x0D []
  else if !r.rcd.words.all c.producible then c.reply r 9 []
  else
    let h : Hart := BitVec.ofNat 11 i
    let ring := if queue then c.reg (qRingAt i) else (c.hart h).sprD 0x130
    let ptr := if queue then c.reg (qPtrAt i) else (c.hart h).sprD 0x131
    let mine := if queue then decide (fld ring 43 40 = w) else decide ((c.hart h).vmid = c.winVmid w)
    if ringClosed ring || !mine then c.reply r 0x0D []
    else if fld ring 63 48 ≠ r.rcd.err.toNat then c.reply r 0x0B []
    else if ringHeld ptr = ringSlots ring then c.reply r 0x0C []
    else
      let a := ringBase ring + 128 * (fld ptr 63 32 % ringSlots ring)
      let c := c.putSlot a 16 (slotHead r 1 :: r.rcd.words)
      let c := { c with slotTags := sset c.slotTags a r.rcd.rtag 0 }
      let c := if queue then
          let c := c.setReg (qPtrAt i) (tailUp ptr)
          if ringHeld ptr = 0 then c.irq dft4 i else c
        else c.modHart h (fun x => x.setSpr 0x131 (tailUp ptr))
      c.reply r 0 []

/-- Take a SEND record. -/
def Chip.sendOp (c : Chip) (idx : Nat) : Chip :=
  match c.homeAt idx with
  | none => c
  | some r => if r.rcd.op ≠ 0x07 || c.mode = .quiesced then c else (c.dropHome idx).deliverSend r

/-- Void every slot from HEAD to TAIL that holds another ROLE_GEN, and refuse its message (R543). -/
def Chip.voidSlots (c : Chip) (ring ptr : Datum) : Chip :=
  if ringClosed ring then c
  else
    (List.range (min (ringHeld ptr) (ringSlots ring))).foldl (fun c i =>
      let a := ringBase ring + 128 * ((fld ptr 31 0 + i) % ringSlots ring)
      let d := (c.word a).dat
      if fld d 30 15 = fld ring 63 48 || fld d 1 0 ≠ 1 || c.region a ≠ .dram then c
      else
        let c := c.unitWrite a (.raw (setFld d 1 0 2))
        let rec0 : Record := { op := 0x87, win := 0, rtag := sget c.slotTags a 0, err := 0x0B,
                               hart := BitVec.ofNat 11 (fld d 45 35), addr := 0, words := [] }
        c.sendRecord (BitVec.ofNat 18 (fld d 63 46)) rec0) c

/-- A refused SEND at its sender (R545). -/
def Chip.refuse (c : Chip) (o : RemoteOp) (code : Nat) : Chip :=
  let ring := c.reg (dft4 + 0x120)
  let ptr := c.reg (dft4 + 0x128)
  if ringClosed ring || decide (ringHeld ptr = ringSlots ring) then
    (c.err dft4 .hardware 9 0).log 7 4 0x5002 o.addr (dat code)
  else
    let head : Word := .raw (dat (code * 2 ^ 48 + o.node.toNat * 2 ^ 30 + o.hart.toNat * 2 ^ 19
      + o.words.length % 16 * 2 ^ 15 + 1))
    let c := c.putSlot (ringBase ring + 128 * (fld ptr 63 32 % ringSlots ring)) 16 (head :: .raw o.addr :: o.words)
    let c := c.setReg (dft4 + 0x128) (tailUp ptr)
    if ringHeld ptr = 0 then c.irq dft4 48 else c

/-- e1 is after e2 (R444). -/
def epochPast (e1 e2 : Nat) : Bool := let d := (e1 + 2 ^ 16 - e2 % 2 ^ 16) % 2 ^ 16; decide (1 ≤ d) && decide (d ≤ 32767)

/-- A MARK record (R546): the record names no type, so a header at the object tells its extent, and two words otherwise
(DEDUCED, log 47). -/
def Chip.markOp (c : Chip) (idx : Nat) : Chip :=
  match c.homeAt idx with
  | none => c
  | some r =>
    if r.rcd.op ≠ 0x08 || c.mode = .quiesced then c
    else
      let w := r.rcd.win.toNat
      match (if c.winOpen w then c.ctxOf (c.winVmid w) else none) with
      | none => c.dropHome idx
      | some k =>
        let e := r.rcd.err.toNat
        if epochPast e (c.ctxEpoch k) then { (c.dropHome idx) with heldMarks := c.heldMarks ++ [r] }
        else if e ≠ c.ctxEpoch k || c.ctxPhase k ≠ 1 then c.dropHome idx
        else
          let va := c.homeVa w r.rcd.addr
          match c.heapPa k va with
          | none => c.dropHome idx
          | some p =>
            match c.heal k ⟨(c.headType p).zeroExtend 8, va⟩ with
            | (d, .waits) => c.keepStalls d
            | (d, _) => d.dropHome idx

/-- The context of a job record. -/
def Chip.jobCtx (c : Chip) (r : HomeRec) : Option Nat :=
  match c.ctxOf (c.winVmid r.rcd.win.toNat) with
  | some k => if c.winOpen r.rcd.win.toNat && c.jobEn k then some k else none
  | none => none

/-- A FLIP_ACK at the coordinator (R474): one of a flip that this module has still to make is kept for it, and one of an older
flip counts for nothing (DESIGN CHOICE, log 48). -/
def Chip.flipAckOp (c : Chip) (idx : Nat) : Chip :=
  match c.homeAt idx with
  | none => c
  | some r =>
    if r.rcd.op ≠ 0x09 || c.mode = .quiesced then c
    else
      let d := c.dropHome idx
      match c.jobCtx r with
      | none => d
      | some k =>
        if !bit (c.reg (ctxReg k 0x40)) 62 then d
        else if r.rcd.err.toNat = c.ctxEpoch k then d.countAck k (some r.src.toNat)
        else if epochPast r.rcd.err.toNat (c.ctxEpoch k) then
          { d with acked := sset d.acked k (sget d.acked k [] ++ [r.src.toNat + 2 ^ 18 * r.rcd.err.toNat]) [] }
        else d

/-- A FLIP_CONF at a member (R474, R486). -/
def Chip.flipConfOp (c : Chip) (idx : Nat) : Chip :=
  match c.homeAt idx with
  | none => c
  | some r =>
    if r.rcd.op ≠ 0x0A || c.mode = .quiesced then c
    else
      let d := c.dropHome idx
      match c.jobCtx r with
      | none => d
      | some k =>
        if r.rcd.err.toNat = c.ctxEpoch k && !bit (c.reg (stAt k)) 38 then (d.setStatus k 38 38 1).irq sluBase (16 + k) else d

/-- A TERM_QUERY at a member (R546): busy while its trace has not terminated, or it has been stirred since the round before, or
its MARK records are unacknowledged. Number 0 ends the MARK of a member that is not the coordinator (DESIGN CHOICE, log 48). -/
def Chip.termOp (c : Chip) (idx : Nat) : Chip :=
  match c.homeAt idx with
  | none => c
  | some r =>
    if r.rcd.op ≠ 0x0B || c.mode = .quiesced then c
    else
      let d := c.dropHome idx
      let answer := fun (d : Chip) (busy : Bool) => d.sendJob r.src
        { op := 0x8B, win := r.rcd.win, rtag := r.rcd.rtag, err := BitVec.ofNat 16 (b2n busy), hart := r.rcd.hart, addr := 0, words := [] }
      match c.jobCtx r with
      | none => answer d false
      | some k =>
        let s := c.slc k
        let marking := decide (c.ctxPhase k = 1)
        if r.rcd.rtag = 0 then
          let d := answer d false
          if marking && !bit (c.reg (ctxReg k 0x40)) 62 then d.relocatePrep k else d
        else
          let busy := (marking && (decide (s.quiet < 2) || s.stirred)) || c.marksOut r.rcd.win
          (answer d busy).setSlc k { s with stirred := false }

/-- A member's answer to a TERM_QUERY at the coordinator (R546), where it is of the round now out. -/
def Chip.termReply (c : Chip) (r : HomeRec) : Chip :=
  match c.jobCtx r with
  | none => c
  | some k =>
    let l := sget c.termReplies k []
    if r.rcd.rtag = (c.slc k).wave && decide (r.rcd.rtag ≠ 0) && !l.any (fun a => decide (a / 2 = r.src.toNat)) then
      { c with termReplies := sset c.termReplies k (l ++ [2 * r.src.toNat + b2n (decide (r.rcd.err ≠ 0))]) [] }
    else c

end Sys2Proof.Machine
end

