-- ==== Sys2Proof/Machine/Time.lean ====
section
/-! DEFINITION. The time counter, its servo, PTP and PPS (R548–R558), and effective calibration (R635, R638). -/
namespace Sys2Proof.Machine

/-- The time page and its registers (R550, R551). -/
def tim : Nat := Blk.tim.base 0
def Chip.tsrc (c : Chip) : Nat := c.rf (tim + 0x108) 51 50
def Chip.everLocked (c : Chip) : Bool := bit (c.reg (tim + 0x100)) 8
def Chip.holdover (c : Chip) : Bool := bit (c.reg (tim + 0x100)) 1

/-- UCAL ranges (R636). -/
def ucalRange (i : Nat) : Int :=
  if i ≤ 88 then 32 else if i ≤ 216 then 15 else if i ≤ 244 then 8 else if i ≤ 2548 then 4 else if i ≤ 2740 then 4 else 2000
/-- The effective value of a calibration item, and whether it was clamped (R635). -/
def Chip.calEff (c : Chip) (i : Nat) : Int × Bool :=
  let raw := Config.fcalValue i + sget c.nvm.live i 0
  let v := min (max raw (Config.fcalLower i)) (Config.fcalUpper i)
  (v, decide (v ≠ raw))
/-- The calibrated oscillator offset in ppb (R638). -/
def Chip.oscPpb (c : Chip) : Int := (c.calEff 2741).1 + c.time.age

/-- The adjustment in force, in ppb (R548) (DESIGN CHOICE, log 50). -/
def Chip.adjNow (c : Chip) : Int :=
  if decide (c.tsrc < 2) && (c.holdover || c.time.everMeasured) then c.time.adjPpb else c.oscPpb

/-- The counter in units of 2^-16 ns, and back (R548). -/
def unitsOf (t : BitVec 96) : Nat := (fldW t 95 48 * 10 ^ 9 + fldW t 47 16) * 2 ^ 16 + fldW t 15 0
where
  fldW (t : BitVec 96) (hi lo : Nat) : Nat := (t.toNat >>> lo) % 2 ^ (hi - lo + 1)
/-- The counter of a number of units. -/
def ofUnits (n : Nat) : BitVec 96 :=
  let ns := n / 2 ^ 16
  BitVec.ofNat 96 (ns / 10 ^ 9 % 2 ^ 48 * 2 ^ 48 + ns % 10 ^ 9 * 2 ^ 16 + n % 2 ^ 16)
/-- The counter as whole nanoseconds. -/
def nsOf (t : BitVec 96) : Int := (unitsOf t / 2 ^ 16 : Nat)

/-- Targets already reached stay reached across a step backward (R558): timers and flips act now, and a waiting thread's
or unit's target moves with the counter (DESIGN CHOICE, log 50). -/
def Chip.keepReached (c : Chip) (new : Datum) : Chip :=
  let old := c.now
  let c := c.harts.foldl (fun (c : Chip) (e : Nat × HartSt) => c.modHart (BitVec.ofNat 11 e.1) (fun x =>
    let x := if x.timerArmed && reached old (x.sprD 0x133) then
        { x.setSpr 0x104 (x.sprD 0x104 ||| 4) with timerArmed := false } else x
    match x.run with
    | .waitt t => if reached old t then { x with run := .waitt new } else x
    | _ => x)) c
  let c := if c.mode = .quiesced then c else (List.range 16).foldl Chip.armedFlip c
  { c with unitWaits := c.unitWaits.map (fun w =>
      if w.2.cond = .timeCompare && reached old w.2.limit then (w.1, { w.2 with limit := new }) else w) }

/-- Set the counter, keeping what a step backward must keep. -/
def Chip.setCounter (c : Chip) (t : BitVec 96) : Chip :=
  let c := if unitsOf t < unitsOf c.time.counter then c.keepReached (t.extractLsb' 16 64) else c
  { c with time := { c.time with counter := t } }

/-- Step the counter by a number of nanoseconds (R552). -/
def Chip.stepBy (c : Chip) (ns : Int) : Chip :=
  let u : Int := (unitsOf c.time.counter : Int) + ns * 2 ^ 16
  (c.setCounter (ofUnits (u % (2 ^ 48 * 10 ^ 9 * 2 ^ 16 : Int)).toNat)).setRf (tim + 0x100) 9 9 1

/-- A signed number saturated to 32 bits, as a field. -/
def sat32 (n : Int) : Nat := (BitVec.ofInt 32 (min (max n (-(2 ^ 31))) (2 ^ 31 - 1))).toNat

/-- A free adjustment within the largest slew (R552, R555): the manual gives no servo law, only its limit
(DESIGN CHOICE, log 50). -/
def Chip.freeAdj (c : Chip) : Chip :=
  let m := c.rf (tim + 0x108) 31 16 * 1000
  let v : Int := (Config.freeNat c.fresh % (2 * m + 1) : Nat) - (m : Nat)
  { c.tick with time := { c.time with adjPpb := v } }

/-- Whether an offset is beyond a bound, in ns. -/
def beyond (off : Int) (ns : Nat) : Bool := decide (ns < off.natAbs)

/-- The correction of an offset: a step, or a change of frequency (R552). -/
def Chip.correct (c : Chip) (off : Int) : Chip :=
  if !c.everLocked && beyond off (c.rf (tim + 0x108) 47 32 * 1000) then c.stepBy (-off) else c.freeAdj

/-- LOCKED and EVER_LOCKED after an offset: 16 in succession within 100 ns lock, one beyond 1 µs unlocks (R552). -/
def Chip.lockBy (c : Chip) (off : Int) : Chip :=
  let n := if beyond off 100 then 0 else min (c.time.inRange + 1) 16
  let c := { c with time := { c.time with inRange := n } }
  let c := if n = 16 then (c.setRf (tim + 0x100) 0 0 1).setRf (tim + 0x100) 8 8 1 else c
  if beyond off 1000 then c.setRf (tim + 0x100) 0 0 0 else c

/-- The servo acts on a measured offset from the source (R552); the source has returned (R555) (DESIGN CHOICE, log 50). -/
def Chip.servo (c : Chip) (off : Int) : Chip :=
  let c := (c.setRf (tim + 0x100) 63 32 (sat32 off)).setRf (tim + 0x100) 1 1 0
  let c := { c with time := { c.time with everMeasured := true } }
  (c.correct off).lockBy off

/-- The port that carries PTP: the lowest-numbered UP port in PORTS (R553). -/
def Chip.ptpPort (c : Chip) : Option Nat :=
  (List.range 4).find? (fun p => bit (c.reg (tim + 0x108)) (52 + p) && decide (c.rf (portAt p) 9 8 = 1)
    && decide (c.dom (89 + p) = .on))

/-- ASYM, signed ns (R551). -/
def Chip.asym (c : Chip) : Int := (BitVec.ofNat 16 (c.rf (tim + 0x108) 15 0)).toInt

/-- An offset is measured from the last Sync, once a path delay is known; a Delay_Req is sent with it (R553). -/
def Chip.measure (c : Chip) (p : Nat) : Chip :=
  let t := c.time
  let c := match t.delay with
    | some d => c.servo (t.t2 - t.t1 - d - c.asym)
    | none => c
  ({ c with time := { c.time with t3 := nsOf c.time.counter } }).emit (.ptpDelayReq p (ptpHeader c.ownNode p (BitVec.ofNat 3 (c.pcpOf 1)) (BitVec.ofNat 12 (c.rf (dft4 + 0x100) 27 16))))

/-- A PTP message (R553): of the domain, on the PTP port, from the best master, while PTP disciplines the counter. -/
def Chip.ptpMessage (c : Chip) (p : Nat) (m : PtpMsg) : Chip :=
  let ctl := c.reg (tim + 0x108)
  if !bit ctl 63 || c.tsrc ≠ 0 || fld ctl 62 56 ≠ m.domain.toNat || c.ptpPort ≠ some p || !m.better then c
  else
    let c := c.setRf (tim + 0x100) 11 10 p
    let now := nsOf c.time.counter
    match m.kind.toNat with
    | 1 => ({ c with time := { c.time with t1 := stampNs m.stamp, t2 := now } }).measure p
    | 2 => { c with time := { c.time with t2 := now } }
    | 3 => ({ c with time := { c.time with t1 := stampNs m.stamp } }).measure p
    | 4 => { c with time := { c.time with delay := some (((c.time.t2 - c.time.t1) + (stampNs m.stamp - c.time.t3)) / 2) } }
    | _ => c

/-- A PPS_IN edge (R550, R556): the marking edge updates PPS_VALID and, with SRC = 1, is taken as a whole second; the
seconds come from TIM_SET where it was written, unless the counter may no longer be stepped. -/
def Chip.ppsEdge (c : Chip) (rising : Bool) : Chip :=
  let ctl := c.reg (tim + 0x108)
  if rising == bit ctl 48 then c
  else
    let t := c.time.counter
    let valid := match c.time.lastPps with
      | some l =>
        let d := (nsOf t - nsOf l).natAbs
        decide (999000000 ≤ d) && decide (d ≤ 1001000000)
      | none => false
    let c := { c.setRf (tim + 0x100) 2 2 (b2n valid) with time := { c.time with lastPps := some t } }
    if c.tsrc ≠ 1 then c
    else
      let ns : Int := (fld (t.extractLsb' 16 64) 31 0 : Nat)
      let off : Int := if ns > 500000000 then ns - 1000000000 else ns
      let c := match c.time.set with
        | some s =>
          let c := { c with time := { c.time with set := none } }
          if c.everLocked then c
          else
            let want : Int := (s.toNat : Int) * 1000000000 + off
            let d := want - nsOf c.time.counter
            if d = 0 then c else c.stepBy d
        | none => c
      c.servo off

/-- Holdover begins (R555): LOCKED := 0, and the counter runs at the mean rate of the last 64 s, which is left free
(DESIGN CHOICE, log 50). -/
def Chip.holdoverEntry (c : Chip) : Chip :=
  let ok := decide (c.tsrc = 0) || (decide (c.tsrc = 1) && !bit (c.reg (tim + 0x100)) 2)
  if !ok || c.holdover then c
  else
    let c := (c.setRf (tim + 0x100) 1 1 1).setRf (tim + 0x100) 0 0 0
    ({ c with time := { c.time with inRange := 0 } }).freeAdj

/-- Core cycles are counted (R685) (DESIGN CHOICE, log 37). -/
def Chip.countCycles (c : Chip) (cycles : Nat) : Chip :=
  (c.pages.filter (fun e => decide (Blk.cor.base 0 ≤ e.1) && decide (e.1 < Blk.cor.base 64) && decide (0x100 ≤ e.1 % 0x1000)
    && decide (e.1 % 0x1000 < 0x200) && decide (fld e.2 55 48 = 1))).foldl (fun c e =>
      let k := (e.1 - Blk.cor.base 0) / 0x1000
      if c.dom (clusterDom k) ≠ .on then c
      else
        let n := fld e.2 47 0 + cycles * fld (c.freqWord (k / 8)) 28 24 / 10
        c.setReg e.1 (setFld e.2 47 0 n ||| (if n ≥ 2 ^ 48 then dat (2 ^ 63) else 0))) c

/-- The 1 GHz time clock runs for a number of cycles (R548, R556); it runs in every mode, OFF included (R724). -/
def Chip.advance (c : Chip) (cycles : Nat) : Chip :=
  let adj := c.adjNow
  let sum : Int := (cycles : Int) * adj * 2 ^ 16 + (c.time.residue : Int)
  let u : Int := (unitsOf c.time.counter : Int) + (cycles : Int) * 2 ^ 16 + sum / 10 ^ 9
  let t := ofUnits (u % (2 ^ 48 * 10 ^ 9 * 2 ^ 16 : Int)).toNat
  let old := c.time.counter
  let c := { c with time := { c.time with counter := t, residue := (sum % 10 ^ 9).toNat } }
  let c := if t.extractLsb' 48 48 ≠ old.extractLsb' 48 48 && bit (c.reg (tim + 0x108)) 49 && decide (c.mode ≠ .off) then
      c.emit .ppsOut else c
  let c := match c.time.lastPps with
    | some l => if nsOf t - nsOf l > 1001000000 then c.setRf (tim + 0x100) 2 2 0 else c
    | none => c
  let c := if nsOf t / 1000000 ≠ nsOf old / 1000000 then { c with power := { c.power with droops := [] } } else c
  c.countCycles cycles

end Sys2Proof.Machine
end

