-- ==== Sys2Proof/Machine/Cage.lean ====
section
/-! DEFINITION. The Cage: groups and rounds (R492–R500), alerts (R502), budgets (R504–R506), and rails (R509, R510). -/
namespace Sys2Proof.Machine

/-- The Cage's pages. -/
def cge64 : Nat := Blk.cge.base 64
def grpAt (g : Nat) : Nat := cge64 + 0x100 + 8 * g
def membersAt (k g : Nat) : Nat := Blk.cge.base k + 0x100 + 8 * g
def railAt : Nat := cge64 + 0x200

/-- A hart is a member of a group (R493). -/
def Chip.member (c : Chip) (g : Nat) (h : Hart) : Bool :=
  bit (c.reg (membersAt (clusterOf h).toNat g)) (h.toNat % 32)
/-- The members of a group. -/
def Chip.members (c : Chip) (g : Nat) : List Hart :=
  (List.range 64).flatMap (fun k =>
    let m := c.reg (membersAt k g)
    if m = 0 then [] else ((List.range 32).filter (fun i => bit m i)).map (fun i => BitVec.ofNat 11 (32 * k + i)))

/-- STATE of a rail (R510). -/
def Chip.railState (c : Chip) (b : Bool) : Nat := if b then c.rf railAt 9 8 else c.rf railAt 1 0
/-- Both rails are failed: CAGE traffic goes in the CTRL class (R36). -/
def Chip.railsLost (c : Chip) : Bool := c.railState false = 2 && c.railState true = 2

/-- The node above a node of a rail (R489). -/
def CageNode.up : CageNode → CageNode
  | .cluster k => .tile (k.extractLsb' 3 3)
  | .tile _ => .root
  | .root => .root
/-- A flit enters a node's queue, merging with the entry of its key there (R491). -/
def queueFlit (l : List Flit) (f : Flit) : List Flit :=
  let same := fun (e : Flit) => decide (e.rail = f.rail) && decide (e.node = f.node) && decide (e.kind = f.kind) && decide (e.g = f.g)
  if l.any same then l.map (fun e => if same e then { e with parts := e.parts ++ f.parts } else e) else l ++ [f]

/-- The rails that carry a message (R490): those UP, and with none UP the mesh (R36). -/
def Chip.carriers (c : Chip) : List (Option Bool) :=
  let up := ([false, true].filter (fun r => decide (c.railState r = 1))).map some
  if up.isEmpty then [none] else up

/-- A message enters the Cage at its cluster's node on both rails, taking a token (R489, R490, R504); the first arrival of a round
sets BUSY (R492) (DESIGN CHOICE, log 51). -/
def Chip.inject (c : Chip) (m : CageMsg) : Chip :=
  let c := c.takeToken m.hart.toNat
  let n := c.injections
  let c : Chip := { c with
    injections := n + 1
    cageMsgs := c.carriers.foldl (fun l r => queueFlit l ⟨r, .cluster (clusterOf m.hart), m.kind, m.g, [(n, m.hart, m.datum)]⟩) c.cageMsgs }
  if m.kind = 0 then c.setRf (grpAt m.g.toNat) 3 3 1 else c

/-- An injection without a token is held (R505, R506) (DESIGN CHOICE, log 51). -/
def Chip.hold (c : Chip) (m : CageMsg) : Chip :=
  let h := m.hart
  let c := { c with held := c.held ++ [(h.toNat, HeldMsg.thread m)] }
  let o := Blk.cge.base (clusterOf h).toNat + 0x180
  let c := c.setReg o (c.reg o ||| dat (2 ^ (h.toNat % 32)))
  let c := c.modHart h (fun x => x.setSpr 0x123 (x.sprD 0x123 ||| 4))
  c.log 2 (clusterOf h).toNat 0x3003 (dat h.toNat) 0

/-- An ALERT joins what is on its way to a hart for the group (R491, R502). -/
def addAlert (l : List (BitVec 4 × Hart × BitVec 32)) (g : BitVec 4) (h : Hart) (d : BitVec 32) : List (BitVec 4 × Hart × BitVec 32) :=
  if l.any (fun a => decide (a.1 = g) && decide (a.2.1 = h)) then
    l.map (fun a => if a.1 = g ∧ a.2.1 = h then (g, h, a.2.2 ||| d) else a)
  else l ++ [(g, h, d)]
/-- The root acts on a message (R491, R499, R502): an ARRIVE joins its round, an ALERT goes to every member. -/
def Chip.rootTake (c : Chip) (kind : BitVec 2) (gr : BitVec 4) (h : Hart) (d : Datum) : Chip :=
  let g := gr.toNat
  if kind = 0 then { c with rounds := sset c.rounds g ⟨(sget c.rounds g ⟨[]⟩).contrib ++ [(h, d)]⟩ ⟨[]⟩ }
  else { c with alerts := (c.members g).foldl (fun l m => addAlert l gr m (d.extractLsb' 0 32)) c.alerts }

/-- A copy of an injection is still on its way. -/
def Chip.inFlight (c : Chip) (n : Nat) : Bool := c.cageMsgs.any (fun f => f.parts.any (fun p => decide (p.1 = n)))
/-- The injections that no copy is left of are forgotten. -/
def Chip.settleActed (c : Chip) : Chip := { c with acted := c.acted.filter c.inFlight }
/-- The root receives an entry (R490): it acts on the first copy of each message, and discards the other. -/
def Chip.rootReceive (c : Chip) (f : Flit) : Chip :=
  let fresh := f.parts.filter (fun p => !c.acted.contains p.1)
  let c := fresh.foldl (fun (c : Chip) p =>
    (c.traceCage (c.rf (grpAt f.g.toNat) 27 16) p.2.1 (decide (f.rail = some true))).rootTake f.kind f.g p.2.1 p.2.2) c
  Chip.settleActed { c with acted := c.acted ++ fresh.map (fun p => p.1) }

/-- The exact value a round gives (R499): its datum, whether it is FIX, and OVF. -/
def roundValue (op : Nat) (l : List Datum) (round : Nat) : Word × Bool :=
  if op = 0 then (.raw (dat round), false)
  else if op = 1 then
    let s := l.foldl (fun (a : Int) d => a + d.toInt) 0
    (wFix s, decide (s < -(2 ^ 63)) || decide (s ≥ 2 ^ 63))
  else if op = 2 then (wFix (l.foldl (fun (a : Int) d => min a d.toInt) (2 ^ 63 - 1)), false)
  else if op = 3 then (wFix (l.foldl (fun (a : Int) d => max a d.toInt) (-(2 ^ 63))), false)
  else (.raw (l.foldl (fun a d => a ||| d) 0), false)

/-- A hart's cluster is in OFF (DESIGN CHOICE, log 51). -/
def Chip.hartOff (c : Chip) (h : Hart) : Bool := decide (c.hartDom h = .off)

/-- Every member has arrived or counts as arrived (R499, R500). -/
def Chip.roundFull (c : Chip) (g : Nat) : Bool :=
  let l := (sget c.rounds g ⟨[]⟩).contrib
  (c.members g).all (fun h => c.hartOff h || l.any (fun e => decide (e.1 = h)))

/-- A round completes and every member whose ARRIVE is in it receives the result in one step (R499). -/
def Chip.roundDone (c : Chip) (g : Nat) : Chip :=
  let l := (sget c.rounds g ⟨[]⟩).contrib.filter (fun e => !c.hartOff e.1)
  if c.rf (grpAt g) 3 3 = 0 || !c.roundFull g then c
  else
    let round := (c.rf (grpAt g) 47 32 + 1) % 2 ^ 16
    let (w, ovf) := roundValue (c.rf (grpAt g) 2 0) (l.map (fun e => e.2)) round
    let c := (c.setRf (grpAt g) 47 32 round).setRf (grpAt g) 3 3
      (b2n (c.cageMsgs.any (fun f => decide (f.kind = 0) && decide (f.g.toNat = g) && f.parts.any (fun p => !c.acted.contains p.1))))
    let c := { c with rounds := sset c.rounds g ⟨[]⟩ ⟨[]⟩ }
    l.foldl (fun c e => c.modHart e.1 (fun x =>
      let s := setFld (setFld (setFld (x.sprD 0x123) 63 48 round) 1 1 (b2n ovf)) 0 0 0
      (x.setSprW 0x122 w).setSpr 0x123 s)) c

/-- Alerts reach a hart (R502): the OR of their data joins what is pending for the group (DESIGN CHOICE, log 51). -/
def Chip.alertHart (c : Chip) (h : Hart) (g : BitVec 4) : Chip :=
  let mine := c.alerts.filter (fun a => decide (a.1 = g) && decide (a.2.1 = h))
  if mine.isEmpty then c
  else
    let c := { c with alerts := c.alerts.filter (fun a => !(decide (a.1 = g) && decide (a.2.1 = h))) }
    if c.hartOff h then c
    else
      let d := mine.foldl (fun d a => d ||| a.2.2) (0 : BitVec 32)
      c.modHart h (fun x => { x with pCage := sput g.toNat (sget x.pCage g.toNat 0 ||| d) x.pCage })

/-- A failed rail's copies are gone; a message of which no other copy is left or was acted on goes on in the mesh (R36, R509)
(DESIGN CHOICE, log 51). -/
def Chip.moveFlits (c : Chip) (rail : Bool) : Chip :=
  let mine := c.cageMsgs.filter (fun f => decide (f.rail = some rail))
  let c : Chip := { c with cageMsgs := c.cageMsgs.filter (fun f => decide (f.rail ≠ some rail)) }
  let lone := (mine.map (fun f => { f with rail := none, parts := f.parts.filter (fun p => !c.inFlight p.1 && !c.acted.contains p.1) })).filter
    (fun f => !f.parts.isEmpty)
  Chip.settleActed { c with cageMsgs := lone.foldl queueFlit c.cageMsgs }

/-- A rail is declared failed (R509, R36): its copies in flight are lost; with the other failed too, every monitor hears
and the module is DEGRADED. -/
def Chip.railFailed (c : Chip) (rail : Bool) (why : Nat) : Chip :=
  if c.railState rail ≠ 1 || !(why = 1 || why = 2) then c
  else
    let c := if rail then c.setRf railAt 9 8 2 else c.setRf railAt 1 0 2
    let c := (c.moveFlits rail).forget (.flit rail)
    let c := (c.irq cge64 0).log 9 (b2n rail) 0x3001 (dat (b2n rail)) (dat why)
    if c.railsLost then
      let c := c.log 9 2 0x3002 0 0
      (c.machineCheck c.monitors 0 0x3002 (trigWord 9 2 0x3002)).degrade
    else c

/-- The bits in error of the next flit that moves on a rail (R490, R509). -/
def Chip.flitFault (c : Chip) (rail : Bool) : Nat :=
  match c.latent.find? (fun e => decide (e.place = .flit rail)) with
  | some e => e.n
  | none => 0
/-- A flit of a rail is read through its code: a corrected one counts in RAIL_STATUS (R510). -/
def Chip.correctFlit (c : Chip) (rail : Bool) : Chip :=
  if c.flitFault rail = 0 then c
  else
    let lo := if rail then 48 else 32
    (c.setRf railAt (lo + 15) lo (min (c.rf railAt (lo + 15) lo + 1) 0xFFFF)).forget (.flit rail)

/-- The node above receives an entry from a node's queue (R489–R491): it merges with the entry of its key there, and at the root
it acts. A message in the mesh goes to the root. An uncorrectable flit fails its rail instead (R509). -/
def Chip.mergeMsg (c : Chip) (idx : Nat) (rail : Bool) : Chip :=
  match c.cageMsgs[idx]? with
  | none => c
  | some f =>
    let up := if f.rail = none then .root else f.node.up
    if !(f.rail = none || f.rail = some rail) then c
    else if f.rail = some rail && decide (2 ≤ c.flitFault rail) then c.railFailed rail 1
    else
      let c := if f.rail = some rail then c.correctFlit rail else c
      let c : Chip := { c with cageMsgs := c.cageMsgs.eraseIdx idx }
      if up = .root then c.rootReceive f else { c with cageMsgs := queueFlit c.cageMsgs { f with node := up } }

end Sys2Proof.Machine
end

