-- ==== Sys2Proof/Machine/Events.lean ====
section
/-! DEFINITION. Asynchronous events: which one a thread accepts at a boundary (R272–R276, R306, R307) and what accepting it
does; what wakes a waiting thread (R180, R181). -/
namespace Sys2Proof.Machine

/-- An event a thread can accept: an asynchronous escalation, a pending deferred store error, or a maskable interrupt by
its INT_PEND bit. -/
inductive Event where
  | esc (v : Nat) (t : Trap)
  | dse (t : Trap)
  | int (b : Nat)
  deriving DecidableEq, Repr

/-- The maskable interrupts by rank A6 to A12, as INT_PEND bits, with their causes (R275, R314). -/
def intRank : List (Nat × Nat) := [(1, 0x39), (2, 0x3A), (4, 0x3C), (3, 0x3B), (6, 0x3E), (5, 0x3D), (0, 0x38)]

/-- The fields a pending escalation gives its frame (R308). -/
def escTrap (e : PendEsc) : Trap := { cause := 0, addr := e.addr, detail := e.detail.toNat, noInsn := true }

/-- The highest-ranked pending asynchronous escalation (R304). -/
def HartSt.pendEsc (x : HartSt) : Option (Nat × Trap) :=
  match x.pMc, x.pHe, x.pCage, x.pSn with
  | some e, _, _, _ => some (0, escTrap e)
  | none, some e, _, _ => some (1, escTrap e)
  | none, none, (g, v) :: _, _ => some (5, { cause := 0, addr := dat (v.toNat * 2 ^ 32 + g), noInsn := true })
  | none, none, [], some e => some (6, escTrap e)
  | none, none, [], none => none

/-- An escalation is acceptable: below the lowest set bit of ACTIVE, or ACTIVE = 0 (R306). -/
def HartSt.escOk (x : HartSt) (v : Nat) : Bool := decide (x.active % 2 ^ (v + 1) = 0)

/-- The event a thread accepts at its present boundary: the highest-ranked of those acceptable (R273, R274, R276, R306). -/
def Chip.acceptable (c : Chip) (h : Hart) : Option Event :=
  let x := c.hart h
  let open_ := !x.tramMode && decide (x.active = 0)
  let p := c.intPend h
  let en := (x.sprD 0x105).toNat
  let rest := match x.dse, open_ with
    | some e, true => some (Event.dse { cause := cDse, addr := e.addr, detail := e.detail.toNat, noInsn := true })
    | _, _ => if open_ && x.ie then (intRank.find? (fun r => (p &&& en).testBit r.1)).map (fun r => Event.int r.1) else none
  match x.pendEsc with
  | some (v, t) => if x.escOk v then some (.esc v t) else rest
  | none => rest

/-- A thread stands at a boundary of R272 between instructions or repetitions. -/
def HartSt.atBoundary (x : HartSt) : Bool :=
  x.wait.isNone && x.micro.isNone && (match x.run with | .run | .wfi | .waitt _ => true | _ => false)

/-- The thread's core has not failed the retry of an instruction: one that has executes nothing until it is spared (R30). -/
def Chip.coreOk (c : Chip) (h : Hart) : Bool := !c.faulty.contains (coreOf h).toNat

/-- A pending escalation is taken off. -/
def HartSt.unpend (x : HartSt) (v : Nat) : HartSt :=
  if v = 0 then { x with pMc := none } else if v = 1 then { x with pHe := none }
  else if v = 5 then { x with pCage := x.pCage.tail } else { x with pSn := none }

/-- Accept an event at a thread's boundary, the saved PC being its pc (R272, R280, R305); an entry replaced by a window
trap, or one that escalates, leaves the event pending (R281, R282). TIMER and IPI are cleared when accepted (R314). -/
def Chip.accept (c : Chip) (h : Hart) (e : Event) : Chip :=
  let c := c.modHart h landDue
  let x := c.hart h
  match e with
  | .esc v t => (c.modHart h (fun x => x.unpend v)).escalate h v 0 t true x.pc 0
  | .dse t =>
    let r := c.enter h t true x.pc x.pc 0
    if r.2 then r.1.modHart h (fun x => { x with dse := none }) else r.1
  | .int b =>
    let cause := ((intRank.find? (fun r => decide (r.1 = b))).map (·.2)).getD 0
    let r := c.enter h { cause := cause, noInsn := true } true x.pc x.pc 0
    if r.2 && (b = 1 || b = 2) then r.1.modHart h (fun x => x.setSpr 0x104 (setFld (x.sprD 0x104) b b 0)) else r.1

/-- A waiting thread that an interrupt ends the wait of without taking it: `WFI` goes on (R181) (DEDUCED, log 41). -/
def Chip.wakes (c : Chip) (h : Hart) : Bool := decide ((c.hart h).run = .wfi) && decide (c.intPend h ≠ 0)

/-- A session halt is due and can take effect (R661): D2 waits while TRAM = 1 or ACTIVE ≠ 0. -/
def DbgSession.live (s : DbgSession) (h : Hart) (x : HartSt) : Bool :=
  s.covers h x && !s.susp.getLsbD (clusterOf h).toNat && (s.cls = 3 || (!x.tramMode && decide (x.active = 0)))
/-- A halt asked for takes effect at this boundary. -/
def Chip.haltDue (c : Chip) (h : Hart) : Bool :=
  (c.hart h).haltReq && c.hdf.dbgs.any (fun s => decide (s.cls ≥ 2) && s.live h (c.hart h))
/-- The thread halts for a debug session (R661). -/
def HartSt.dbgHalt (x : HartSt) : HartSt :=
  { x with run := .dbg, dbgBefore := x.run, haltReq := false, dbgStep := false }

end Sys2Proof.Machine
end

