-- ==== Sys2Proof/Machine/Insn.lean ====
section
/-! DEFINITION. One instruction of a thread from fetch to completion: debug matches (R664, R665), the fetch (R135, R136),
its own effect, the load slots (R161), the loop-end check (R107), `REP` (R110, R112), and the frame of its trap. -/
namespace Sys2Proof.Machine

/-- Words an instruction will access, for the watchpoints (R664): the first address, how many words, loaded, stored. -/
structure Touch where
  a : Datum
  n : Nat := 1
  ld : Bool := true
  st : Bool := false
  deriving DecidableEq, Repr

/-- What an instruction's own effect comes to: it completes in sequence, transfers control, has issued an operation
whose result it waits for, or has entered a Blend routine. -/
inductive Flow where
  | seq
  | jump (pc : Datum)
  | issued (w : Wait)
  | routine
  deriving DecidableEq, Repr

/-- An instruction: its word, whether it is a Tram instruction, the words it will access, and its effect. -/
structure Insn where
  code : BitVec 32
  tram : Bool := false
  touch : Chip → List Touch := fun _ => []
  body : M Flow

/-- Instruction words (R138, R141). -/
def encA (op fn : Nat) (o : AOps) : BitVec 32 :=
  BitVec.ofNat 32 (op * 2 ^ 26 + o.rd.toNat * 2 ^ 20 + o.rs.toNat * 2 ^ 14 + o.rt.toNat * 2 ^ 8 + fn)
def encI (op : Nat) (o : IOps) : BitVec 32 :=
  BitVec.ofNat 32 (op * 2 ^ 26 + o.rd.toNat * 2 ^ 20 + o.rs.toNat * 2 ^ 14 + o.imm.toNat)
def encB (op : Nat) (cond : BitVec 4) (disp : BitVec 22) : BitVec 32 :=
  BitVec.ofNat 32 (op * 2 ^ 26 + cond.toNat * 2 ^ 22 + disp.toNat)

/-- An instruction comparator matches at a PC (R664). -/
def bpHit (d pc : Datum) : Bool := bit d 63 && decide (fld d 54 2 = fld pc 54 2)
/-- A data comparator matches an access (R664). -/
def wpHit (d : Datum) (t : Touch) : Bool :=
  bit d 63 && ((bit d 62 && t.ld) || (bit d 61 && t.st)) && decide ((fld d 54 3 + 2 ^ 52 - fld t.a 54 3) % 2 ^ 52 < t.n)

/-- The software comparators that match, as HIT records them (R664) (DEDUCED, log 32). -/
def HartSt.swHits (x : HartSt) (ts : List Touch) : Nat :=
  if x.priv ≠ 0 || bit (x.sprD 0x146) 1 then 0
  else (List.range 4).foldl (fun a k => if bpHit (x.sprD (0x140 + k)) x.pc then a + 2 ^ k else a) 0
    + (List.range 2).foldl (fun a k => if ts.any (wpHit (x.sprD (0x144 + k))) then a + 2 ^ (4 + k) else a) 0

/-- A session comparator matches: at U and S under D2, at any privilege under D3, and not on the instruction resumed from
(R665) (DEDUCED, log 32). -/
def Chip.sessionHit (c : Chip) (h : Hart) (ts : List Touch) : Bool :=
  let x := c.hart h
  !x.dbgSkip && c.hdf.dbgs.any (fun s => decide (s.cls ≥ 2) && s.live h x && (s.cls = 3 || decide (x.priv ≠ 3)) &&
    ((List.range 4).any (fun k => bpHit (sget x.sbp (4 * s.id + k) 0) x.pc) ||
     (List.range 2).any (fun k => ts.any (wpHit (sget x.swp (2 * s.id + k) 0)))))

/-- Raise DEBUG_EVENT before an instruction (R664); HIT and STEP change where the event itself is entered (R281)
(DEDUCED, log 39). -/
def Chip.debugEvent (c : Chip) (h : Hart) (hits : Nat) (code : BitVec 32) : Chip :=
  let x := c.hart h
  let set := fun (x : HartSt) =>
    let d := setFld (x.sprD 0x146) 13 8 hits
    { x.setSpr 0x146 (if x.stepDue then setFld d 0 0 0 else d) with stepDue := false }
  let r := c.tryTrap h { cause := cDebug } x.pc x.pc code
  if r.2 then r.1.modHart h set else r.1

/-- The word of the instruction at a PC (R135, R136): faults of its translation, POISON, FETCH_TAG (DESIGN CHOICE, log 13). -/
def fetchWord (h : Hart) (pc : Datum) : M (BitVec 32) := do
  let x ← tryCatch (translate (walkerOf h pc 1) (← hartM h).regime ⟨1, false, .fetch⟩) (fun e => match e with
    | .trap t => throw (.trap { t with noInsn := true })
    | e => throw e)
  let p := x.pa / 8 * 8
  let c ← get
  let w ← (match c.region p with
    | .dram => do
      set (c.coreRead h .l1i p x.mono.isNone false)
      let w := (← get).word p
      pure (match x.mono with
        | some t => if isPoison w then w else ⟨t.zeroExtend 8, w.dat⟩
        | none => w)
    | _ => do
      set (c.unpopulated (.thread h) p)
      pure ⟨poisonTag, 0⟩)
  need (!isPoison w) { cause := cPoison, addr := pc, access := 1, noInsn := true }
  need (decide (w.tag = 0x15)) { cause := cFetchTag, addr := pc, access := 1, noInsn := true }
  pure (if bit pc 2 then w.dat.extractLsb' 32 32 else w.dat.extractLsb' 0 32)

/-- The loop-end check of R107 with its levels as fuel: the state after it and the next PC (DEDUCED, log 18). -/
def HartSt.loopEnd (x : HartSt) (pc : Datum) : Nat → HartSt × Datum
  | 0 => (x, pc + 4)
  | n + 1 =>
    let d := x.ldepth
    if d = 0 then (x, pc + 4)
    else
      let lc := x.sprD (0x048 + (d - 1))
      if x.sprD (0x044 + (d - 1)) = pc ∧ fld lc 48 32 = (x.spilled + x.resident) % 2 ^ 17 then
        let k := (fld lc 31 0 + 2 ^ 32 - 1) % 2 ^ 32
        let x := (x.putSpr (0x048 + (d - 1)) (setFld lc 31 0 k)).dirty (some 6)
        if k ≠ 0 then (x, x.sprD (0x040 + (d - 1)))
        else (x.putSpr 0x000 (setFld x.pstate 6 4 (d - 1))).loopEnd pc n
      else (x, pc + 4)

/-- The PC after an instruction that completes without a transfer (R107, R110, R112); `rep` says that it began under REP, so
that a REPA it restores itself is left for the instruction after it (R119). -/
def HartSt.sequel (x : HartSt) (rep : Bool) : HartSt :=
  if rep && x.repa && !x.tramMode then
    let n := fld (x.sprD 0x04C) 15 0 - 1
    let x := (x.putSpr 0x04C (setFld (x.sprD 0x04C) 15 0 n)).dirty (some 6)
    if n ≠ 0 then x
    else
      let r := (x.putSpr 0x000 (setFld x.pstate 7 7 0)).loopEnd x.pc 4
      { r.1 with pc := pcForm r.2 }
  else
    let r := x.loopEnd x.pc 4
    { r.1 with pc := pcForm r.2 }

/-- A single step of a session ends where its thread stands (R662); a thread that R309 has halted stays so. -/
def Chip.stepHalt (c : Chip) (h : Hart) : Chip :=
  c.modHart h (fun x => if !x.dbgStep then x else if x.atBoundary then x.dbgHalt else { x with dbgStep := false })
/-- A single step ends at the boundary after its instruction: an event due there is accepted first (R662) (DEDUCED, log 39). -/
def Chip.stepEnd (c : Chip) (h : Hart) : Chip :=
  if !(c.hart h).dbgStep then c
  else match c.acceptable h with
    | some e => if (c.hart h).atBoundary then (c.accept h e).stepHalt h else c.stepHalt h
    | none => c.stepHalt h

/-- An instruction has executed: its slot, its PC, and the single-step and SKIP bits of a U instruction (R161, R664). -/
def Chip.retire (c : Chip) (h : Hart) (f : Flow) (priv0 : Nat) (rep : Bool) : Chip :=
  match f with
  | .issued w => c.modHart h (fun x => { x with wait := some w })
  | .routine => c
  | _ =>
    let c := c.modHart h (fun x =>
      let x := match f with
        | .jump pc => { x with pc := pcForm pc }
        | _ => x.sequel rep
      let x := { x with landings := x.landings.map (fun (l : Landing) => { l with slots := l.slots - 1 }), dbgSkip := false }
      if priv0 = 0 then
        let d := x.sprD 0x146
        { x.setSpr 0x146 (setFld d 1 1 0) with stepDue := x.stepDue || bit d 0 }
      else x)
    (c.pmc h 0x02 1).stepEnd h

/-- A thread can execute its next instruction now: it runs, its cluster is ON, its core has not failed (R30), no event is
acceptable before it (R276) and no halt is due (R661) (DESIGN CHOICE, log 12) (DEDUCED, log 39). -/
def Chip.ready (c : Chip) (h : Hart) : Bool :=
  let x := c.hart h
  decide (x.run = .run) && x.wait.isNone && x.micro.isNone && decide (c.hartDom h = .on) && c.coreOk h && (c.acceptable h).isNone
    && !c.haltDue h

/-- A fault of the core's logic is met by an instruction (R29, R30): a transient one is retried from precise state; a core
that fails the retry is faulty, and is spared. -/
def Chip.meetLogic (c : Chip) (h : Hart) : Chip :=
  match c.latent.find? (fun e => decide (e.place = .logic (coreOf h))) with
  | none => c
  | some e =>
    let c := (c.forget e.place).log 1 (coreOf h).toNat 0x2001 (c.hart h).pc (if e.n ≤ 1 then 0 else 1)
    if e.n ≤ 1 then c else { c with faulty := c.faulty ++ [(coreOf h).toNat] }

/-- Execute an instruction at a thread's PC: debug matches, the fetch, the instruction, its completion or its trap. -/
def Chip.execute (c : Chip) (h : Hart) (i : Insn) : Chip :=
  let c := (c.modHart h landDue).meetLogic h
  let x := c.hart h
  let ts := i.touch c
  if !c.coreOk h then c
  else if c.sessionHit h ts then c.modHart h HartSt.dbgHalt
  else if x.priv = 0 && (x.stepDue || decide (x.swHits ts ≠ 0)) then (c.debugEvent h (x.swHits ts) i.code).stepEnd h
  else
    match (do let _ ← fetchWord h x.pc; i.body : M Flow) c with
    | .ok f c' => (c'.modHart h (fun y => { y with insn := i.code })).retire h f x.priv x.repa
    | .error s c' =>
      let c'' := c.stopped c' h s x.pc (pcForm (x.pc + 4)) i.code
      if s = .wait then c'' else c''.stepEnd h

/-- A word of a reserved encoding (R100, R141, R142, R144): a Tram word of a reserved form, or a word whose major opcode, or
whose function code in its group, the opcode map reserves. -/
def reservedWord (tram : Bool) (w : BitVec 32) : Bool :=
  let op := (w.extractLsb' 26 6).toNat
  let fn := (w.extractLsb' 0 8).toNat
  let has := fun (l : List Nat) => l.contains fn
  if tram then w.getLsbD 31
  else if op = 0x00 then !has [0x00, 0x01, 0x02, 0x03, 0x04, 0x05, 0x08, 0x09, 0x0A, 0x0C, 0x0D, 0x0E, 0x10, 0x11, 0x12, 0x14,
    0x15, 0x16, 0x18]
  else if op = 0x01 then !has [0x00, 0x01, 0x02, 0x03, 0x04, 0x08, 0x09, 0x0A, 0x0B, 0x10]
  else if op = 0x02 then !has [0x00, 0x01, 0x02, 0x03, 0x04, 0x05, 0x08, 0x09, 0x0A, 0x0B, 0x10, 0x11, 0x12, 0x13, 0x14, 0x18,
    0x19, 0x1C, 0x1D, 0x1E, 0x1F]
  else if op = 0x03 then !has [0x00, 0x01, 0x02, 0x03, 0x10, 0x11, 0x12, 0x13, 0x14, 0x15, 0x16, 0x18, 0x19, 0x1A, 0x1B, 0x1C,
    0x20, 0x21, 0x40, 0x41, 0x42, 0x44, 0x45, 0x46, 0x48, 0x49, 0x4A]
  else if op = 0x29 then !(has [0x00, 0x01, 0x02, 0x03, 0x10, 0x11, 0x12, 0x13] || (decide (0x20 ≤ fn) && decide (fn ≤ 0x28)))
  else if op = 0x2A then decide (fn % 8 ≥ 6)
  else !((decide (0x04 ≤ op) && decide (op ≤ 0x0D)) || (decide (0x10 ≤ op) && decide (op ≤ 0x15))
    || (decide (0x18 ≤ op) && decide (op ≤ 0x28)) || (decide (0x30 ≤ op) && decide (op ≤ 0x32)))

/-- An encoding with no instruction (R144). -/
def insnNone (tram : Bool) (w : BitVec 32) : Insn := { code := w, tram := tram, body := raise { cause := cReserved } }

/-- The instruction a thread executes when the command names i: i where the word at its PC is i's or cannot be fetched, and
the reserved encoding where the word is one; none where the word is another instruction's (DESIGN CHOICE, log 13). -/
def Chip.atWord (c : Chip) (h : Hart) (i : Insn) : Option Insn :=
  match fetchWord h (c.hart h).pc c with
  | .ok w _ => if w = i.code then some i else if reservedWord i.tram w then some (insnNone i.tram w) else none
  | .error _ _ => some i

/-- A thread's instruction as a command: nothing happens where the thread cannot execute it now (DESIGN CHOICE, log 13). -/
def Chip.runInsn (c : Chip) (h : Hart) (i : Insn) : Chip :=
  let x := c.hart h
  if c.ready h && (i.tram == x.tramMode) && (x.tramMode || !x.repa) then
    match (c.modHart h landDue).atWord h i with
    | some j => c.execute h j
    | none => c
  else c

/-- An issued instruction gets its result: its effect on the thread, its completion or its trap (R175). -/
def Chip.resume (c : Chip) (h : Hart) (m : M Unit) : Chip :=
  let c := c.modHart h (fun x => { x with wait := none })
  let x := c.hart h
  match (do m; pure Flow.seq : M Flow) c with
  | .ok f c' => c'.retire h f x.priv x.repa
  | .error s c' => (c.stopped c' h s x.pc (pcForm (x.pc + 4)) x.insn).stepEnd h

/-- What a command answers. -/
abbrev Res := Host.Outcome State Fault Refusal
/-- A command's next state: the module changed and settled, the queue kept (DESIGN CHOICE, log 12) (DESIGN CHOICE, log 15). -/
def done (s : State) (c : Chip) : Res := .next { s with chip := c.settle }
/-- An instruction as a command. -/
def runs (h : Hart) (i : Insn) (s : State) : Res := done s (s.chip.runInsn h i)

end Sys2Proof.Machine
end

