-- ==== Sys2Proof/Machine/RawInt.lean ====
section
/-! DEFINITION. Raw integer instructions (R149–R152), CMP and CMPI (R147) and TAGCHK (R148). -/
namespace Sys2Proof.Machine

/-- A raw instruction of two sources and a RAW result (R149, R150). -/
def raw2 (h : Hart) (o : AOps) (f : Datum → Datum → M Datum) : M Flow := do
  specsOk [o.rd, o.rs, o.rt]
  let a ← src h o.rs
  let b ← src h o.rt
  let x ← rawSrc a
  let y ← rawSrc b
  let r ← f x y
  writeSpec h o.rd (.raw r)
  pure .seq

/-- A raw instruction of one source, its rt field 0. -/
def raw1 (h : Hart) (o : AOps) (f : Datum → Datum) : M Flow := do
  zeroField o.rt
  specsOk [o.rd, o.rs]
  let x ← rawSrc (← src h o.rs)
  writeSpec h o.rd (.raw (f x))
  pure .seq

/-- A raw instruction with an immediate; `ok` says which immediates its zero bits admit (R139, R140). -/
def rawI (h : Hart) (o : IOps) (ok : Bool) (f : Datum → Datum) : M Flow := do
  need ok { cause := cReserved }
  specsOk [o.rd, o.rs]
  let x ← rawSrc (← src h o.rs)
  writeSpec h o.rd (.raw (f x))
  pure .seq

/-- imm14 sign- and zero-extended (R139). -/
def sx (o : IOps) : Datum := o.imm.signExtend 64
def zx (o : IOps) : Datum := o.imm.zeroExtend 64

/-- Shift amounts are modulo 128; 64 and above shift everything out (R150). -/
def shl128 (a b : Datum) : Datum := a <<< (b.toNat % 128)
def shr128 (a b : Datum) : Datum := a >>> (b.toNat % 128)
def sar128 (a b : Datum) : Datum := a.sshiftRight (b.toNat % 128)

/-- Bits [127:64] of the signed product (R150). -/
def mulh (a b : Datum) : Datum := BitVec.ofInt 64 ((a.toInt * b.toInt) / 2 ^ 64)
/-- Signed quotient truncated toward zero, and its remainder; a divisor of 0 traps (R151). -/
def divD (a b : Datum) : M Datum := do
  need (decide (b ≠ 0)) { cause := cDivZero }
  pure (BitVec.ofInt 64 (a.toInt.tdiv b.toInt))
def remD (a b : Datum) : M Datum := do
  need (decide (b ≠ 0)) { cause := cDivZero }
  pure (BitVec.ofInt 64 (a.toInt.tmod b.toInt))

/-- Leading zeros, trailing zeros and one bits (R150, R151). -/
def clzD (a : Datum) : Datum := dat (((List.range 64).find? (fun i => bit a (63 - i))).getD 64)
def ctzD (a : Datum) : Datum := dat (((List.range 64).find? (fun i => bit a i)).getD 64)
def popcD (a : Datum) : Datum := dat ((List.range 64).filter (fun i => bit a i)).length

/-- BFX, BFI and BPERM (R152). -/
def fieldMask (b : Datum) : Datum := dat (2 ^ (fld b 13 8 + 1) - 1)
def bfxD (a b : Datum) : Datum := (a >>> fld b 5 0) &&& fieldMask b
def bfiD (d a b : Datum) : Datum :=
  let m := fieldMask b <<< fld b 5 0
  (d &&& ~~~m) ||| ((a <<< fld b 5 0) &&& m)
def bpermD (a b : Datum) : Datum :=
  dat (ofBytes ((List.range 8).map (fun i =>
    let s := fld b (4 * i + 3) (4 * i)
    if s ≥ 8 then 0 else BitVec.ofNat 8 (fld a (8 * s + 7) (8 * s)))))

/-- BFI reads rd as a source too (R149, R152). -/
def bodyBfi (h : Hart) (o : AOps) : M Flow := do
  specsOk [o.rd, o.rs, o.rt]
  let a ← src h o.rs
  let b ← src h o.rt
  let d ← src h o.rd
  let x ← rawSrc a
  let y ← rawSrc b
  let z ← rawSrc d
  writeSpec h o.rd (.raw (bfiD z x y))
  pure .seq

/-- CMP writes COND alone (R147). -/
def bodyCmp (h : Hart) (o : AOps) : M Flow := do
  zeroField o.rd
  specsOk [o.rs, o.rt]
  let a ← src h o.rs
  let b ← src h o.rt
  let x ← rawSrc a
  let y ← rawSrc b
  setCond h (condCmp x y)
  pure .seq
/-- CMPI writes COND alone (R147). -/
def bodyCmpi (h : Hart) (o : IOps) : M Flow := do
  zeroField o.rd
  specsOk [o.rs]
  let x ← rawSrc (← src h o.rs)
  setCond h (condCmp x (sx o))
  pure .seq

/-- TAGCHK (R148): the TYPE of rs, or PTR, IMM or NUM of its row. A mode other than 0 holds 0 in imm14[5:0]. -/
def bodyTagchk (h : Hart) (o : IOps) : M Flow := do
  zeroField o.rd
  let mode := o.imm.toNat / 64 % 4
  let low := o.imm.toNat % 64
  need (decide (o.imm.toNat < 256) && (mode = 0 || low = 0)) { cause := cReserved }
  specsOk [o.rs]
  let w ← src h o.rs
  let c ← get
  setCond h (condBool (match mode with
    | 0 => decide (w.type.toNat = low)
    | 1 => c.ptr w
    | 2 => c.imm w
    | _ => c.num w))
  pure .seq

/-- ADD (R150). -/
def insnAdd (h : Hart) (o : AOps) : Insn := { code := encA 0x00 0x00 o, body := raw2 h o (fun a b => pure (a + b)) }
def execAdd (h : Hart) (o : AOps) (s : State) : Res := runs h (insnAdd h o) s

/-- SUB (R150). -/
def insnSub (h : Hart) (o : AOps) : Insn := { code := encA 0x00 0x01 o, body := raw2 h o (fun a b => pure (a - b)) }
def execSub (h : Hart) (o : AOps) (s : State) : Res := runs h (insnSub h o) s

/-- MUL (R150). -/
def insnMul (h : Hart) (o : AOps) : Insn := { code := encA 0x00 0x02 o, body := raw2 h o (fun a b => pure (a * b)) }
def execMul (h : Hart) (o : AOps) (s : State) : Res := runs h (insnMul h o) s

/-- MULH (R150). -/
def insnMulh (h : Hart) (o : AOps) : Insn := { code := encA 0x00 0x03 o, body := raw2 h o (fun a b => pure (Sys2Proof.Machine.mulh a b)) }
def execMulh (h : Hart) (o : AOps) (s : State) : Res := runs h (insnMulh h o) s

/-- DIV (R151). -/
def insnDiv (h : Hart) (o : AOps) : Insn := { code := encA 0x00 0x04 o, body := raw2 h o divD }
def execDiv (h : Hart) (o : AOps) (s : State) : Res := runs h (insnDiv h o) s

/-- REM (R151). -/
def insnRem (h : Hart) (o : AOps) : Insn := { code := encA 0x00 0x05 o, body := raw2 h o remD }
def execRem (h : Hart) (o : AOps) (s : State) : Res := runs h (insnRem h o) s

/-- AND (R150). -/
def insnAnd (h : Hart) (o : AOps) : Insn := { code := encA 0x00 0x08 o, body := raw2 h o (fun a b => pure (a &&& b)) }
def execAnd (h : Hart) (o : AOps) (s : State) : Res := runs h (insnAnd h o) s

/-- OR (R150). -/
def insnOr (h : Hart) (o : AOps) : Insn := { code := encA 0x00 0x09 o, body := raw2 h o (fun a b => pure (a ||| b)) }
def execOr (h : Hart) (o : AOps) (s : State) : Res := runs h (insnOr h o) s

/-- XOR (R150). -/
def insnXor (h : Hart) (o : AOps) : Insn := { code := encA 0x00 0x0A o, body := raw2 h o (fun a b => pure (a ^^^ b)) }
def execXor (h : Hart) (o : AOps) (s : State) : Res := runs h (insnXor h o) s

/-- SHL (R150). -/
def insnShl (h : Hart) (o : AOps) : Insn := { code := encA 0x00 0x0C o, body := raw2 h o (fun a b => pure (shl128 a b)) }
def execShl (h : Hart) (o : AOps) (s : State) : Res := runs h (insnShl h o) s

/-- SHR (R150). -/
def insnShr (h : Hart) (o : AOps) : Insn := { code := encA 0x00 0x0D o, body := raw2 h o (fun a b => pure (shr128 a b)) }
def execShr (h : Hart) (o : AOps) (s : State) : Res := runs h (insnShr h o) s

/-- SAR (R150). -/
def insnSar (h : Hart) (o : AOps) : Insn := { code := encA 0x00 0x0E o, body := raw2 h o (fun a b => pure (sar128 a b)) }
def execSar (h : Hart) (o : AOps) (s : State) : Res := runs h (insnSar h o) s

/-- CLZ (R151). -/
def insnClz (h : Hart) (o : AOps) : Insn := { code := encA 0x00 0x10 o, body := raw1 h o clzD }
def execClz (h : Hart) (o : AOps) (s : State) : Res := runs h (insnClz h o) s

/-- CTZ (R151). -/
def insnCtz (h : Hart) (o : AOps) : Insn := { code := encA 0x00 0x11 o, body := raw1 h o ctzD }
def execCtz (h : Hart) (o : AOps) (s : State) : Res := runs h (insnCtz h o) s

/-- POPC (R150). -/
def insnPopc (h : Hart) (o : AOps) : Insn := { code := encA 0x00 0x12 o, body := raw1 h o popcD }
def execPopc (h : Hart) (o : AOps) (s : State) : Res := runs h (insnPopc h o) s

/-- BFX (R152). -/
def insnBfx (h : Hart) (o : AOps) : Insn := { code := encA 0x00 0x14 o, body := raw2 h o (fun a b => pure (bfxD a b)) }
def execBfx (h : Hart) (o : AOps) (s : State) : Res := runs h (insnBfx h o) s

/-- BFI (R152). -/
def insnBfi (h : Hart) (o : AOps) : Insn := { code := encA 0x00 0x15 o, body := bodyBfi h o }
def execBfi (h : Hart) (o : AOps) (s : State) : Res := runs h (insnBfi h o) s

/-- BPERM (R152). -/
def insnBperm (h : Hart) (o : AOps) : Insn := { code := encA 0x00 0x16 o, body := raw2 h o (fun a b => pure (bpermD a b)) }
def execBperm (h : Hart) (o : AOps) (s : State) : Res := runs h (insnBperm h o) s

/-- CMP (R147). -/
def insnCmp (h : Hart) (o : AOps) : Insn := { code := encA 0x00 0x18 o, body := bodyCmp h o }
def execCmp (h : Hart) (o : AOps) (s : State) : Res := runs h (insnCmp h o) s

/-- ADDI (R150). -/
def insnAddi (h : Hart) (o : IOps) : Insn := { code := encI 0x04 o, body := rawI h o true (fun a => a + sx o) }
def execAddi (h : Hart) (o : IOps) (s : State) : Res := runs h (insnAddi h o) s

/-- ANDI (R150). -/
def insnAndi (h : Hart) (o : IOps) : Insn := { code := encI 0x05 o, body := rawI h o true (fun a => a &&& zx o) }
def execAndi (h : Hart) (o : IOps) (s : State) : Res := runs h (insnAndi h o) s

/-- ORI (R150). -/
def insnOri (h : Hart) (o : IOps) : Insn := { code := encI 0x06 o, body := rawI h o true (fun a => a ||| zx o) }
def execOri (h : Hart) (o : IOps) (s : State) : Res := runs h (insnOri h o) s

/-- XORI (R150). -/
def insnXori (h : Hart) (o : IOps) : Insn := { code := encI 0x07 o, body := rawI h o true (fun a => a ^^^ zx o) }
def execXori (h : Hart) (o : IOps) (s : State) : Res := runs h (insnXori h o) s

/-- SHLI (R150). -/
def insnShli (h : Hart) (o : IOps) : Insn := { code := encI 0x08 o, body := rawI h o (decide (o.imm.toNat < 128)) (fun a => shl128 a (zx o)) }
def execShli (h : Hart) (o : IOps) (s : State) : Res := runs h (insnShli h o) s

/-- SHRI (R150). -/
def insnShri (h : Hart) (o : IOps) : Insn := { code := encI 0x09 o, body := rawI h o (decide (o.imm.toNat < 128)) (fun a => shr128 a (zx o)) }
def execShri (h : Hart) (o : IOps) (s : State) : Res := runs h (insnShri h o) s

/-- SARI (R150). -/
def insnSari (h : Hart) (o : IOps) : Insn := { code := encI 0x0A o, body := rawI h o (decide (o.imm.toNat < 128)) (fun a => sar128 a (zx o)) }
def execSari (h : Hart) (o : IOps) (s : State) : Res := runs h (insnSari h o) s

/-- SHORI (R150). -/
def insnShori (h : Hart) (o : IOps) : Insn := { code := encI 0x0B o, body := rawI h o true (fun a => (a <<< 14) ||| zx o) }
def execShori (h : Hart) (o : IOps) (s : State) : Res := runs h (insnShori h o) s

/-- CMPI (R147). -/
def insnCmpi (h : Hart) (o : IOps) : Insn := { code := encI 0x0C o, body := bodyCmpi h o }
def execCmpi (h : Hart) (o : IOps) (s : State) : Res := runs h (insnCmpi h o) s

/-- TAGCHK (R148). -/
def insnTagchk (h : Hart) (o : IOps) : Insn := { code := encI 0x0D o, body := bodyTagchk h o }
def execTagchk (h : Hart) (o : IOps) (s : State) : Res := runs h (insnTagchk h o) s

end Sys2Proof.Machine
end

