-- ==== Sys2Proof/Machine/Float.lean ====
section
/-! DEFINITION. Raw floating point (R153–R156): IEEE 754 binary64 by exact integers, rounded once to nearest even, with
tininess detected after rounding. -/
namespace Sys2Proof.Machine

/-- A binary64 value: a NaN, an infinity, or (−1)^s × m × 2^e. -/
inductive Fp where
  | nan
  | inf (s : Bool)
  | fin (s : Bool) (m : Nat) (e : Int)
  deriving DecidableEq, Repr

/-- The default NaN (R153), and a NaN quieted. -/
def qnan : Datum := 0x7FF8000000000000
def quiet (d : Datum) : Datum := d ||| 0x0008000000000000

/-- Read a datum as binary64 (R153). -/
def fpOf (d : Datum) : Fp :=
  let s := bit d 63
  let x := fld d 62 52
  let f := fld d 51 0
  if x = 2047 then (if f = 0 then .inf s else .nan)
  else if x = 0 then .fin s f (-1074)
  else .fin s (2 ^ 52 + f) (Int.ofNat x - 1075)
/-- A NaN, and a signalling one. -/
def isNan (d : Datum) : Bool := decide (fpOf d = .nan)
def isSnan (d : Datum) : Bool := isNan d && !bit d 51

/-- A signed zero and a signed infinity. -/
def zeroD (s : Bool) : Datum := dat (b2n s * 2 ^ 63)
def infD (s : Bool) : Datum := dat (b2n s * 2 ^ 63 + 2047 * 2 ^ 52)

/-- m / 2^k to the nearest integer, ties to even; `more` says the exact value is a little above m. Gives also whether
anything was lost. -/
def nearest (m k : Nat) (more : Bool) : Nat × Bool :=
  let r := m / 2 ^ k
  let rem := m % 2 ^ k
  let twice := 2 * rem
  let up := decide (twice > 2 ^ k) || (decide (twice = 2 ^ k) && (more || decide (r % 2 = 1)))
  (if up then r + 1 else r, decide (rem ≠ 0) || more)

/-- Round the exact (−1)^s × (m, and a little more where `more`) × 2^e to binary64 (R153), with the flags raised: OF 4,
UF 2, NX 1 (R155). -/
def roundFp (s : Bool) (m : Nat) (e : Int) (more : Bool) : Datum × Nat :=
  if m = 0 then (zeroD s, 0)
  else
    let m' := if more then 4 * m + 1 else m
    let e' := if more then e - 2 else e
    let q0 := e' + (Nat.log2 m' : Int) - 52
    let q := max q0 (-1074)
    let at_ := fun (q : Int) => if q ≤ e' then (m' * 2 ^ (e' - q).toNat, false) else nearest m' (q - e').toNat false
    let (r, lost) := at_ q
    let tiny := decide (q0 < -1074) && (decide (q0 < -1075) || decide ((at_ q0).1 < 2 ^ 53))
    let bits := if r < 2 ^ 52 then (r : Int) else (q + 1075) * 2 ^ 52 + ((r : Int) - 2 ^ 52)
    if bits ≥ 2047 * 2 ^ 52 then (infD s, 5)
    else (dat (b2n s * 2 ^ 63 + bits.toNat), (if lost then 1 else 0) + (if tiny && lost then 2 else 0))

/-- The NaN an operation delivers (R153), with NV where an operand signals. -/
def nanOf (l : List Datum) : Datum × Nat :=
  match l.find? isNan with
  | some d => (quiet d, if l.any isSnan then 16 else 0)
  | none => (qnan, 16)

/-- An exact signed value m × 2^e, rounded; an exact zero sum takes the sign given. -/
def roundInt (m : Int) (e : Int) (zs : Bool) : Datum × Nat :=
  if m = 0 then (zeroD zs, 0) else roundFp (decide (m < 0)) m.natAbs e false

/-- The signed significand of a finite value, aligned at 2^e. -/
def signed (s : Bool) (m : Nat) (e e0 : Int) : Int := (if s then -1 else 1) * ((m * 2 ^ (e - e0).toNat : Nat) : Int)

/-- FADD. -/
def fadd (a b : Datum) : Datum × Nat :=
  match fpOf a, fpOf b with
  | .inf s, .inf t => if s = t then (a, 0) else (qnan, 16)
  | .inf _, .fin .. => (a, 0)
  | .fin .., .inf _ => (b, 0)
  | .fin s m e, .fin t n f =>
    let e0 := min e f
    roundInt (signed s m e e0 + signed t n f e0) e0 (s && t)
  | _, _ => nanOf [a, b]
/-- A datum with its sign bit turned. -/
def fneg (a : Datum) : Datum := a ^^^ 0x8000000000000000
/-- FSUB: a NaN operand keeps its sign. -/
def fsub (a b : Datum) : Datum × Nat := if isNan a || isNan b then nanOf [a, b] else fadd a (fneg b)
/-- FMUL. -/
def fmul (a b : Datum) : Datum × Nat :=
  match fpOf a, fpOf b with
  | .inf s, .inf t => (infD (s != t), 0)
  | .inf s, .fin t n _ => if n = 0 then (qnan, 16) else (infD (s != t), 0)
  | .fin s m _, .inf t => if m = 0 then (qnan, 16) else (infD (s != t), 0)
  | .fin s m e, .fin t n f => roundFp (s != t) (m * n) (e + f) false
  | _, _ => nanOf [a, b]
/-- FDIV. -/
def fdiv (a b : Datum) : Datum × Nat :=
  match fpOf a, fpOf b with
  | .inf _, .inf _ => (qnan, 16)
  | .inf s, .fin t _ _ => (infD (s != t), 0)
  | .fin s _ _, .inf t => (zeroD (s != t), 0)
  | .fin s m e, .fin t n f =>
    if n = 0 then (if m = 0 then (qnan, 16) else (infD (s != t), 8))
    else
      let k := 2 ^ 120
      roundFp (s != t) (m * k / n) (e - f - 120) (decide (m * k % n ≠ 0))
  | _, _ => nanOf [a, b]
/-- FMA: a × b + d with one rounding. `inv` settles NV for an invalid product added to a quiet NaN, which IEEE 754 leaves
open (DEDUCED, log 42). -/
def fma (a b d : Datum) (inv : Bool) : Datum × Nat :=
  let badProduct := match fpOf a, fpOf b with
    | .inf _, .fin _ n _ => decide (n = 0)
    | .fin _ m _, .inf _ => decide (m = 0)
    | _, _ => false
  if isNan a || isNan b || isNan d then
    let r := nanOf [a, b, d]
    (r.1, if r.2 = 0 && badProduct && inv then 16 else r.2)
  else if badProduct then (qnan, 16)
  else match fpOf a, fpOf b, fpOf d with
    | .fin s m e, .fin t n f, .fin u k g =>
      let e0 := min (e + f) g
      roundInt (signed (s != t) (m * n) (e + f) e0 + signed u k g e0) e0 ((s != t) && u)
    | .fin .., .fin .., _ => (d, 0)
    | _, _, .inf u => let s := bit a 63 != bit b 63; if u = s then (d, 0) else (qnan, 16)
    | _, _, _ => (infD (bit a 63 != bit b 63), 0)

/-- A signed integer as FLO (R154). -/
def floOfInt (n : Int) : Datum × Nat := roundInt n 0 false
/-- The integer nearest a finite value, truncated or to nearest even, and whether it is inexact. -/
def intOfFp (s : Bool) (m : Nat) (e : Int) (trunc : Bool) : Int × Bool :=
  let (n, lost) := if e ≥ 0 then (m * 2 ^ e.toNat, false)
    else
      let k := (-e).toNat
      if trunc then (m / 2 ^ k, decide (m % 2 ^ k ≠ 0)) else nearest m k false
  ((if s then -1 else 1) * (n : Int), lost)
/-- FCVT.FI and FCVT.FN (R154). -/
def intOfFlo (a : Datum) (trunc : Bool) : Datum × Nat :=
  match fpOf a with
  | .fin s m e =>
    let (n, lost) := intOfFp s m e trunc
    if -(2 ^ 63) ≤ n ∧ n < 2 ^ 63 then (BitVec.ofInt 64 n, b2n lost) else (0x8000000000000000, 16)
  | _ => (0x8000000000000000, 16)

/-- Ordered comparison: equal and less, or none where unordered (R147). -/
def fcmp (a b : Datum) : Option (Bool × Bool) :=
  match fpOf a, fpOf b with
  | .nan, _ => none
  | _, .nan => none
  | .inf s, .inf t => some (s == t, s && !t)
  | .inf s, .fin .. => some (false, s)
  | .fin .., .inf t => some (false, !t)
  | .fin s m e, .fin t n f =>
    let e0 := min e f
    let x := signed s m e e0
    let y := signed t n f e0
    some (x == y, decide (x < y))

/-- A raw FP instruction of two sources with an FLO result (R149, R153, R156). -/
def fp2 (h : Hart) (o : AOps) (f : Datum → Datum → Datum × Nat) : M Flow := do
  specsOk [o.rd, o.rs, o.rt]
  let a ← src h o.rs
  let b ← src h o.rt
  let x ← rawSrc a
  let y ← rawSrc b
  let r := f x y
  lazySpec h o.rd
  raiseFp h r.2
  writeSpec h o.rd (wFlo r.1)
  pure .seq
/-- A conversion: one source, rt 0 (R154). -/
def fp1 (h : Hart) (o : AOps) (f : Datum → Word × Nat) : M Flow := do
  zeroField o.rt
  specsOk [o.rd, o.rs]
  let x ← rawSrc (← src h o.rs)
  let r := f x
  lazySpec h o.rd
  raiseFp h r.2
  writeSpec h o.rd r.1
  pure .seq

/-- FMA reads rd as its third source (R149, R153). -/
def bodyFma (h : Hart) (o : AOps) : M Flow := do
  specsOk [o.rd, o.rs, o.rt]
  let a ← src h o.rs
  let b ← src h o.rt
  let d ← src h o.rd
  let x ← rawSrc a
  let y ← rawSrc b
  let z ← rawSrc d
  let r := fma x y z (Config.freeBit (← get).fresh)
  modify Chip.tick
  raiseFp h r.2
  writeSpec h o.rd (wFlo r.1)
  pure .seq

/-- FCMP writes COND alone; only a signalling NaN raises NV (R147). -/
def bodyFcmp (h : Hart) (o : AOps) : M Flow := do
  zeroField o.rd
  specsOk [o.rs, o.rt]
  let a ← src h o.rs
  let b ← src h o.rt
  let x ← rawSrc a
  let y ← rawSrc b
  raiseFp h (if isSnan x || isSnan y then 16 else 0)
  setCond h (match fcmp x y with
    | none => condOf false false false true false
    | some (z, lt) => condOf z lt lt false z)
  pure .seq

/-- FADD (R153). -/
def insnFadd (h : Hart) (o : AOps) : Insn := { code := encA 0x01 0x00 o, body := fp2 h o fadd }
def execFadd (h : Hart) (o : AOps) (s : State) : Res := runs h (insnFadd h o) s

/-- FSUB (R153). -/
def insnFsub (h : Hart) (o : AOps) : Insn := { code := encA 0x01 0x01 o, body := fp2 h o fsub }
def execFsub (h : Hart) (o : AOps) (s : State) : Res := runs h (insnFsub h o) s

/-- FMUL (R153). -/
def insnFmul (h : Hart) (o : AOps) : Insn := { code := encA 0x01 0x02 o, body := fp2 h o fmul }
def execFmul (h : Hart) (o : AOps) (s : State) : Res := runs h (insnFmul h o) s

/-- FDIV (R153). -/
def insnFdiv (h : Hart) (o : AOps) : Insn := { code := encA 0x01 0x03 o, body := fp2 h o fdiv }
def execFdiv (h : Hart) (o : AOps) (s : State) : Res := runs h (insnFdiv h o) s

/-- FMA (R153). -/
def insnFma (h : Hart) (o : AOps) : Insn := { code := encA 0x01 0x04 o, body := bodyFma h o }
def execFma (h : Hart) (o : AOps) (s : State) : Res := runs h (insnFma h o) s

/-- FCVT_IF (R154). -/
def insnFcvtIf (h : Hart) (o : AOps) : Insn := { code := encA 0x01 0x08 o, body := fp1 h o (fun a => let r := floOfInt a.toInt; (wFlo r.1, r.2)) }
def execFcvtIf (h : Hart) (o : AOps) (s : State) : Res := runs h (insnFcvtIf h o) s

/-- FCVT_FI (R154). -/
def insnFcvtFi (h : Hart) (o : AOps) : Insn := { code := encA 0x01 0x09 o, body := fp1 h o (fun a => let r := intOfFlo a true; (.raw r.1, r.2)) }
def execFcvtFi (h : Hart) (o : AOps) (s : State) : Res := runs h (insnFcvtFi h o) s

/-- FCVT_FN (R154). -/
def insnFcvtFn (h : Hart) (o : AOps) : Insn := { code := encA 0x01 0x0A o, body := fp1 h o (fun a => let r := intOfFlo a false; (.raw r.1, r.2)) }
def execFcvtFn (h : Hart) (o : AOps) (s : State) : Res := runs h (insnFcvtFn h o) s

/-- FCVT_BF (R154). -/
def insnFcvtBf (h : Hart) (o : AOps) : Insn := { code := encA 0x01 0x0B o, body := fp1 h o (fun a => (wFlo a, 0)) }
def execFcvtBf (h : Hart) (o : AOps) (s : State) : Res := runs h (insnFcvtBf h o) s

/-- FCMP (R147). -/
def insnFcmp (h : Hart) (o : AOps) : Insn := { code := encA 0x01 0x10 o, body := bodyFcmp h o }
def execFcmp (h : Hart) (o : AOps) (s : State) : Res := runs h (insnFcmp h o) s

end Sys2Proof.Machine
end

