-- ==== Sys2Proof/Machine/Generic.lean ====
section
/-! DEFINITION. Generic operations: dispatch (R182–R187), numbers and bignums (R194–R205), entry to Blend (R242–R250), and
the rows of cells, vectors, comparisons and tags (R188–R193, R208–R213). -/
namespace Sys2Proof.Machine

/-- BLEND_FAULT at a microaddress (R251). -/
def blendFault (ua : Nat) (reason : Nat) : Trap := { cause := cBlend, addr := dat (reason * 2 ^ 16 + ua % 2 ^ 14) }

/-- Tag-checked uses (R52, R183): UNBOUND_USE before FUT_PENDING. -/
def tagUse (l : List Word) : M Unit := do
  need (l.all (fun w => decide (w.type ≠ 0x06))) { cause := cUnbound }
  need (l.all (fun w => decide (w.type ≠ 0x14))) { cause := cFut }

/-- An entry of the patch match table: valid, ROM microaddress, patch microaddress (R223). -/
def Chip.matchEntry (c : Chip) (i : Nat) : BitVec 29 := (c.matchTable.lookup i).getD (Config.matchImage i)
/-- Where a microword is fetched from (R223): a ROM microaddress held in a valid entry is fetched from patch RAM. -/
def Chip.microAddr (c : Chip) (ua : Nat) : Nat :=
  if ua ≥ 0x3000 then ua
  else match ((List.range 64).map c.matchEntry).find? (fun e => e.getLsbD 28 && decide ((e.extractLsb' 14 14).toNat = ua)) with
    | some e => (e.extractLsb' 0 14).toNat
    | none => ua
/-- Errors of the microword a hart's core fetches are met (R222): a single bit is corrected; the second component says
whether one cannot be. -/
def Chip.meetControl (c : Chip) (h : Hart) (a : Nat) : Chip × Bool :=
  let es := c.latent.filter (fun e => match e.place with
    | .control k u _ _ => decide (k = coreOf h) && decide (u.toNat = a)
    | _ => false)
  (es.foldl (fun (c : Chip) e =>
    let c := c.forget e.place
    if e.n ≤ 1 then c.log 1 (coreOf h).toNat 0x1001 (Config.arrayId 8) (dat a) else c) c, es.any (fun e => decide (e.n ≥ 2)))
/-- An uncorrectable microword is met: its entry, and a machine check at the monitor of the fetching thread's partition
(R222) (DESIGN CHOICE, log 85). -/
def Chip.controlError (c : Chip) (h : Hart) (a kind : Nat) : Chip :=
  let core := (coreOf h).toNat
  (c.log 1 core 0x2007 (dat a) (dat kind)).machineCheck (c.monitorOf (c.hart h).vmid) (dat a) 0x2007 (trigWord 1 core 0x2007)
/-- Vendor microcode is fetched at a ROM microaddress (R222, R223). An error in patch RAM that cannot be corrected is a machine
check, and the Headframe rewrites the core's patch RAM before it goes on. -/
def vendorFetch (h : Hart) (ua : Nat) : M Unit := do
  let c ← get
  if c.latent.isEmpty then pure ()
  else
    let a := c.microAddr ua
    let (c, bad) := c.meetControl h a
    set (if bad && decide (a ≥ 0x3000) then
        (c.controlError h a 0).forgetAll (fun p => match p with
          | .control k u _ _ => decide (k = coreOf h) && decide (u.toNat < 0x3800)
          | _ => false)
      else c)

/-- Enter a Blend routine (R242–R244, R250): the VMID check, then the store's usability (R222). From the end of a load's fetch to
its swap, dispatches wait (R262) (DEDUCED, log 42) (DEDUCED, log 53). -/
def enterBlend (h : Hart) (entry cls byRt tsel : Nat) (o : AOps) (insn : BitVec 32) (a b d : Word) : M Flow := do
  let c ← get
  let x := c.hart h
  let k := (clusterOf h).toNat
  if (c.xfers.lookup k).isSome then throw .wait else pure ()
  need (decide (sget c.blendVmid k 0 = x.vmid)) (blendFault entry 7)
  need (!c.blendBad.contains k) (blendFault entry 0x0B)
  set (c.pmc h 0x06 1)
  let e : BitVec 14 := BitVec.ofNat 14 entry
  modM h (fun x => { x with micro := some {
    upc := e, entry := e, cls := cls, byRt := BitVec.ofNat 2 byRt, tsel := BitVec.ofNat 8 tsel, aops := o, insn := insn,
    us := [], ops := a, opt := b, opd := d, mdr := .raw 0, z := false, n := false, c := false, v := false, stack := [],
    count := 0, atCommit := false, phase := .fetch, tp0 := x.tp } })
  pure .routine
/-- The microaddress of a user type's vector for a class (R242). -/
def Chip.vector (c : Chip) (t : BitVec 6) (cls : Nat) : Nat := fld (c.row t) 41 32 * 16 + cls

/-- How a class and its operands resolve (R187). -/
inductive Disp where
  | numeric | chr | blend (t : BitVec 6) (byRt : Bool) | hw | nil | imm | bad
  deriving DecidableEq, Repr

/-- vnum and user (R187). -/
def vnum (t : BitVec 6) : Bool := t = 0x01 || t = 0x02 || t = 0x0E
def user (t : BitVec 6) : Bool := decide (t.toNat ≥ 0x20)
/-- Dispatch resolution (R187), for class numbers of R242. -/
def Chip.resolve (c : Chip) (cls : Nat) (a b : Word) : Disp :=
  let ta := a.type
  let tb := b.type
  let byA := Disp.blend ta false
  if cls ≤ 3 ∨ (6 ≤ cls ∧ cls ≤ 8) then
    if vnum ta && vnum tb then .numeric
    else if ta = 0x03 && tb = 0x03 && decide (cls ≥ 6) then .chr
    else if user ta && (tb = ta || (c.num a && (vnum tb || (user tb && c.num b)))) then byA
    else if user tb && c.num b && vnum ta then .blend tb true
    else .bad
  else if cls = 4 then (if vnum ta then .numeric else if user ta then byA else .bad)
  else if cls = 5 then
    (if user ta then byA else if (ta = 0x01 || ta = 0x0E) && tb = 0x01 then .numeric else .bad)
  else if cls = 9 ∨ cls = 10 then
    (if ta = 0x08 then .hw else if ta = 0x04 then .nil else if user ta && c.ptr a then byA else .bad)
  else if cls = 11 ∨ cls = 12 then (if ta = 0x08 then .hw else if user ta && c.ptr a then byA else .bad)
  else if cls = 13 ∨ cls = 14 then
    (if 0x09 ≤ ta.toNat ∧ ta.toNat ≤ 0x0D then .hw else if user ta && c.ptr a then byA else .bad)
  else if user ta then byA else if ta = 0x0F then .hw else if c.imm a then .imm else .bad

/-- An object's header as an instruction reads it (R65, R69, R70): payload length, payload address, SUBTYPE. -/
def readHeader (h : Hart) (p : Datum) : M (Nat × Datum × Nat) := do
  let hd ← loadWord h p
  need (decide (hd.type = 0x10)) { cause := cType, addr := p }
  let raw := fld hd.dat 39 32
  if raw ≥ 0xF2 then modify (fun c => c.log 0 h.toNat 0x4002 p (dat raw)) else pure ()
  let sub := if raw ≥ 0xF2 then 0 else raw
  let n := fld hd.dat 63 40
  if n ≠ 0xFFFFFF then pure (n, p + 8, sub)
  else do
    let l ← loadWord h (p + 8)
    need (decide (l.tag = 0) && decide (0xFFFFFF ≤ l.dat.toNat) && decide (l.dat.toNat < 2 ^ 52))
      { cause := cTagInvalid, addr := p + 8, access := 2 }
    pure (l.dat.toNat, p + 16, sub)

/-- The value of two's-complement digits, lowest first. -/
def digitsVal (l : List Datum) : Int :=
  let u : Nat := l.foldr (fun (d : Datum) (a : Nat) => d.toNat + 2 ^ 64 * a) 0
  if bit (l.getLast?.getD 0) 63 then (u : Int) - 2 ^ (64 * l.length) else u
/-- Digit words a value needs (R199). -/
def digitsNeeded (v : Int) : Nat :=
  let m := if v ≥ 0 then v.toNat else (-v - 1).toNat
  (if m = 0 then 0 else Nat.log2 m + 1) / 64 + 1
/-- Payload words of the BIG made for d digit words, and its whole size (R199, R204). -/
def bigWords (d : Nat) : Nat := if d ≤ 0xFFFFFD then d / 2 * 2 + 1 else (max d 0x1000000 + 1) / 2 * 2
def bigSize (d : Nat) : Nat := if d ≤ 0xFFFFFD then 1 + bigWords d else 2 + bigWords d

/-- A number on the vendor path: an integer with its digit count, or FLO bits (R194, R199, R200). -/
inductive Numb where
  | int (v : Int) (n : Nat)
  | flo (d : Datum)
  deriving DecidableEq, Repr
/-- The rank of a trap in the order of R81, and of any other after them. -/
def trapRank (t : Trap) : Nat :=
  if t.cause = cAlign then 1 else if t.cause = cTransl || t.cause = cPerm || t.cause = cWalkDev then 2
  else if t.cause = cPoison then 3 else if t.cause = cTagInvalid then 4 else if t.cause = cType then 8 else 9
/-- The trap an instruction takes of those it meets: the first by R81. -/
def firstTrap : List Trap → Option Trap
  | [] => none
  | t :: ts => match firstTrap ts with
    | some u => if trapRank u < trapRank t then some u else some t
    | none => some t
/-- A read whose trap is kept until every operand has been read. -/
def attempt {α : Type} (m : M α) : M (Except Trap α) :=
  tryCatch (do return .ok (← m)) (fun e => match e with
    | .trap t => pure (.error t)
    | e => throw e)
/-- A word of a BIG as memory holds it: no heal, for a BIG holds no pointer (R199). -/
def bigWord (h : Hart) (a : Datum) : M Word := do
  need (decide (a.toNat % 8 = 0)) { cause := cAlign, addr := a, access := 2 }
  let w ← readAt h (← translate (walkerOf h a 2) (← hartM h).regime ⟨2, false, .other⟩)
  need (!isPoison w) { cause := cPoison, addr := a, access := 2 }
  pure w
/-- The traps and the value of the BIG at p with n payload words from base (R199, R200); `ts` are traps of its header. -/
def bigDigits (h : Hart) (p base : Datum) (n : Nat) (ts : List Trap) : M (List Trap × Numb) := do
  let bad : Trap := { cause := cType, addr := p }
  let ts := if n = 0 then ts ++ [bad] else ts
  if n > 2 ^ 32 then pure (ts ++ [{ cause := cBigLimit }], .int 0 1)
  else do
    let ds ← (List.range n).mapM (fun i => attempt (bigWord h (base + dat (8 * i))))
    let ts := ts ++ ds.filterMap (fun d => match d with
      | .error t => some t
      | .ok w => if w.tag = 0 then none else some bad)
    pure (ts, .int (digitsVal (ds.map (fun d => match d with | .ok w => w.dat | .error _ => 0))) n)
/-- A numeric operand: the traps it meets, and its value where it meets none (R81, R199). -/
def readNum (h : Hart) (w : Word) : M (List Trap × Numb) := do
  if w.type = 0x02 then pure ([], .flo w.dat)
  else if w.type = 0x01 then pure ([], .int w.dat.toInt 1)
  else do
    let p := w.dat
    let bad : Trap := { cause := cType, addr := p }
    match ← attempt (bigWord h p) with
    | .error t => pure ([t], .int 0 1)
    | .ok hd =>
      if hd.type ≠ 0x10 then pure ([bad], .int 0 1)
      else do
        let sub := fld hd.dat 39 32
        if sub ≥ 0xF2 then modify (fun c => c.log 0 h.toNat 0x4002 p (dat sub)) else pure ()
        let ts := if sub = 0xF0 then [] else [bad]
        let n := fld hd.dat 63 40
        if n ≠ 0xFFFFFF then bigDigits h p (p + 8) n ts
        else match ← attempt (bigWord h (p + 8)) with
          | .error t => pure (ts ++ [t], .int 0 1)
          | .ok l =>
            if l.tag = 0 ∧ 0xFFFFFF ≤ l.dat.toNat ∧ l.dat.toNat < 2 ^ 52 then bigDigits h p (p + 16) l.dat.toNat ts
            else pure (ts ++ [{ cause := cTagInvalid, addr := p + 8, access := 2 }], .int 0 1)
/-- The numeric operands of an instruction, or the first of the traps they meet (R81, R199). -/
def readNums (h : Hart) (ws : List Word) : M (List Numb) := do
  let rs ← ws.mapM (readNum h)
  match firstTrap (rs.flatMap (·.1)) with
  | some t => raise t
  | none => pure (rs.map (·.2))

/-- The checks of R203 for w words: the address allocated. Their FAULT_ADDR is TP, with no access named
(DESIGN CHOICE, log 79). -/
def allocCheck (h : Hart) (w : Nat) : M Datum := do
  let x ← hartM h
  let tp := x.tp
  need (decide (tp.toNat % 16 = 0)) { cause := cAlign, addr := tp }
  need (localForm tp) { cause := cTagInvalid, addr := tp }
  need (decide (tp.toNat + 8 * w ≤ (x.sprD 0x003).toNat)) { cause := cTab, addr := tp }
  pure tp
/-- A pointer of a type with the good colour (R207). -/
def Chip.goodPtr (c : Chip) (h : Hart) (t : BitVec 6) (a : Datum) : Word :=
  ⟨((c.goodOf (c.hart h)).zeroExtend 8 <<< 6) ||| t.zeroExtend 8, a⟩
/-- Store words at an address in order, every one checked before any is stored, in the order of R81. -/
def storeAll (h : Hart) (a : Datum) (ws : List Word) : M Unit := do
  let r := (← hartM h).regime
  let at_ := fun (i : Nat) => a + dat (8 * i)
  let xs ← ws.zipIdx.mapM (fun e => checkPlace h r (at_ e.2) 3 .other)
  ws.zipIdx.forM (fun e => checkTakes (at_ e.2) e.1 3 .producible)
  ((ws.zipIdx).zip xs).forM (fun e => checkMono (at_ e.1.2) e.1.1 3 e.2)
  ((ws.zipIdx).zip xs).forM (fun e => putWord h r e.2 (at_ e.1.2) 3 e.1.1)
/-- TP advances by the words allocated at it (R205, R208): from what it was, also where rd is TP. -/
def advanceTp (h : Hart) (tp : Datum) (words : Nat) : M Unit :=
  if words = 0 then pure () else modM h (fun x => x.putPreg 417 (.raw (tp + dat (8 * words))))

/-- A bignum-path operation completes: LONG_CTL.ACTIVE := 0 (R218). -/
def longDone (h : Hart) : M Unit := do
  let ctl ← sprM h 0x011
  if bit ctl 0 then setSprM h 0x011 (setFld ctl 0 0 0) else pure ()
/-- An integer result on the bignum path (R198–R205): the limit, the reservation of R204, a FIX where it fits, else a BIG at
TP; and the words TP is to advance by (DESIGN CHOICE, log 43). -/
def bigResult (h : Hart) (v : Int) (bound : Nat) : M (Word × Nat) := do
  let d := digitsNeeded v
  need (decide (d ≤ 0xFFFFFFFF)) { cause := cBigLimit }
  let tp ← allocCheck h (bigSize bound)
  let cls ← sprM h 0x010
  if d = 1 then do
    longDone h
    pure (wFix v, 0)
  else do
    let n := bigWords d
    let long := decide (d > 0xFFFFFD)
    let head : List Word := ⟨0x10, dat ((if long then 0xFFFFFF else n) * 2 ^ 40 + 0xF0 * 2 ^ 32 + fld cls 31 0)⟩ ::
      (if long then [Word.raw (dat n)] else [])
    let digits := (List.range n).map (fun i => Word.raw (BitVec.ofInt 64 (v / 2 ^ (64 * i))))
    storeAll h tp (head ++ digits)
    longDone h
    pure ((← get).goodPtr h 0x0E tp, bigSize d)

/-- An operand as FLO, with the flags of its conversion (R194, R196). -/
def Numb.toFlo : Numb → Datum × Nat
  | .int v _ => floOfInt v
  | .flo d => (d, 0)

/-- An FLO result with its flags, which may trap (R155, R156). -/
def floResult (h : Hart) (r : Datum × Nat) (fl : Nat) : M Word := do
  raiseFp h (r.2 ||| fl)
  pure (wFlo r.1)

/-- What a numeric class comes to once its operands are read (R188, R194–R197): an integer result with the bound of R204, a
comparison of integers, or what the FLO rules give; `fast` says that the pipeline does it, and otherwise an integer one runs on
the bignum path. -/
inductive Plan where
  | int (fast : Bool) (v : Int) (bound : Nat)
  | rel (fast : Bool) (r : Bool)
  | flo (r : Datum × Nat) (flags : Nat)
  | frel (r : Bool) (flags : Nat)
  deriving DecidableEq, Repr
/-- An integer result: on the fast path where both operands are FIX and the value fits (R188). -/
def planInt (fix : Bool) (v : Int) (bound : Nat) : Plan := .int (fix && decide (digitsNeeded v = 1)) v bound

/-- Arithmetic on the vendor numeric path for classes ADD to DIV (R194, R195, R204). Division by an integer 0 of either form
traps DIV_ZERO (DEDUCED, log 42) (DESIGN CHOICE, log 80). -/
def planArith (cls : Nat) (fix : Bool) (x y : Numb) : M Plan :=
  match x, y with
  | .int p na, .int q nb =>
    match cls with
    | 0 => pure (planInt fix (p + q) (max na nb + 1))
    | 1 => pure (planInt fix (p - q) (max na nb + 1))
    | 2 => pure (planInt fix (p * q) (na + nb))
    | _ => do
      need (decide (q ≠ 0)) { cause := cDivZero }
      pure (planInt false (p.tdiv q) (na + 1))
  | _, _ =>
    let f := x.toFlo
    let g := y.toFlo
    let r := match cls with
      | 0 => fadd f.1 g.1
      | 1 => fsub f.1 g.1
      | 2 => fmul f.1 g.1
      | _ => fdiv f.1 g.1
    pure (.flo r (f.2 ||| g.2))
/-- Negation (R194, R202); a NaN operand is quieted (R153) (DEDUCED, log 42). -/
def planNeg (fix : Bool) (x : Numb) : Plan :=
  match x with
  | .int p na => planInt fix (-p) (na + 1)
  | .flo d => .flo (if isNan d then nanOf [d] else (fneg d, 0)) 0
/-- Arithmetic shift by a FIX count (R195, R200, R204). -/
def planAsh (fix : Bool) (x : Numb) (k : Int) : M Plan :=
  match x with
  | .flo _ => raise { cause := cType }
  | .int p na =>
    if k < 0 then pure (planInt fix (p / 2 ^ (min k.natAbs (64 * na))) na)
    else if p = 0 then pure (planInt fix 0 (na + (k.natAbs + 63) / 64))
    else do
      let m := if p ≥ 0 then p.toNat else (-p - 1).toNat
      need (decide (((if m = 0 then 0 else Nat.log2 m + 1) + k.natAbs) / 64 + 1 ≤ 0xFFFFFFFF)) { cause := cBigLimit }
      pure (planInt fix (p * 2 ^ k.natAbs) (na + (k.natAbs + 63) / 64))
/-- Comparison (R197): classes LT 6, LE 7, NUMEQ 8. -/
def planCmp (cls : Nat) (fix : Bool) (x y : Numb) : Plan :=
  let pick := fun (eq lt : Bool) => match cls with | 6 => lt | 7 => lt || eq | _ => eq
  match x, y with
  | .int p _, .int q _ => .rel fix (pick (p == q) (decide (p < q)))
  | _, _ =>
    let f := x.toFlo
    let g := y.toFlo
    match fcmp f.1 g.1 with
    | some (eq, lt) => .frel (pick eq lt) (f.2 ||| g.2)
    | none => .frel false (f.2 ||| g.2 ||| (if cls ≠ 8 || isSnan f.1 || isSnan g.1 then 16 else 0))
/-- A numeric class on the vendor path, its operands read (R194–R200). -/
def numPlan (h : Hart) (cls : Nat) (a b : Word) : M Plan := do
  let xs ← readNums h (if cls = 4 ∨ cls = 5 then [a] else [a, b])
  let x := (xs[0]?).getD (.int 0 1)
  let y := (xs[1]?).getD (.int 0 1)
  let fix := decide (a.type = 0x01) && (decide (cls = 4) || decide (b.type = 0x01))
  if cls ≤ 3 then planArith cls fix x y
  else if cls = 4 then pure (planNeg fix x)
  else if cls = 5 then planAsh fix x b.dat.toInt
  else pure (planCmp cls fix x y)
/-- The plan runs on the bignum path (R217): an integer operation that the pipeline does not do. -/
def Plan.long : Plan → Bool
  | .int fast _ _ => !fast
  | .rel fast _ => !fast
  | _ => false

/-- CHR comparison (R187). -/
def chrCmp (cls : Nat) (a b : Word) : Bool :=
  let p := fld a.dat 20 0
  let q := fld b.dat 20 0
  match cls with | 6 => decide (p < q) | 7 => decide (p ≤ q) | _ => decide (p = q)
/-- T or NIL (R189). -/
def boolWord (b : Bool) : Word := if b then wTrue else wNil

/-- Carry out a plan: its result, and the words TP is to advance by. -/
def runPlan (h : Hart) (p : Plan) : M (Word × Nat) := do
  match p with
  | .int fast v bound => if fast then pure (wFix v, 0) else bigResult h v bound
  | .rel fast r => do
    if fast then pure () else longDone h
    pure (boolWord r, 0)
  | .flo r fl => do pure (← floResult h r fl, 0)
  | .frel r fl => do
    raiseFp h fl
    pure (boolWord r, 0)
/-- An operation on the bignum path comes to a commit point (R217): its first words of digits lie as RAW words in the reservation
at TP, which the manual does not value (R205). A class that the pipeline does, or that is no integer operation, has none
(DESIGN CHOICE, log 43). -/
def longBegin (h : Hart) (cls : Nat) (a b : Word) (n : Nat) : M Unit := do
  let p ← numPlan h cls a b
  need p.long { cause := cType }
  match p with
  | .int _ v bound => do
    need (decide (digitsNeeded v ≤ 0xFFFFFFFF)) { cause := cBigLimit }
    let tp ← allocCheck h (bigSize bound)
    let c ← get
    let k := min n (bigSize bound)
    storeAll h tp ((List.range k).map (fun i => Word.raw (Config.freeDatum (c.fresh + i))))
    modify (fun c => { c with fresh := c.fresh + k })
  | _ => pure ()
  lazyLoad h 10

/-- A class 0–8 on the vendor path: its result word, and the words TP is to advance by (R187, R194). What the pipeline does not do
itself runs in vendor microcode (R188, R223). -/
def numOp (h : Hart) (cls : Nat) (d : Disp) (a b : Word) : M (Word × Nat) := do
  if d = .chr then pure (boolWord (chrCmp cls a b), 0)
  else do
    let p ← numPlan h cls a b
    if p.long then vendorFetch h (16 * a.type.toNat + cls) else pure ()
    runPlan h p

/-- Deliver a comparison, the group of rd being loaded: COND and rd (R147, R189). -/
def putBool (h : Hart) (rd : BitVec 6) (b : Bool) : M Flow := do
  setCond h (condBool b)
  writeSpec h rd (boolWord b)
  pure .seq

/-- A numeric class as an instruction (R183, R187): rt is read where the class has two operands. -/
def bodyNum (h : Hart) (o : AOps) (insn : BitVec 32) (cls : Nat) : M Flow := do
  if cls = 4 then zeroField o.rt else pure ()
  specsOk [o.rd, o.rs, o.rt]
  let a ← src h o.rs
  let b ← (if cls = 4 then pure (Word.raw 0) else src h o.rt)
  tagUse [a, b]
  let c ← get
  match c.resolve cls a b with
  | .bad => raise { cause := cType }
  | .blend t byRt => do
    let d ← src h o.rd
    enterBlend h (c.vector t cls) cls (b2n byRt) t.toNat o insn a b d
  | d => do
    lazySpec h o.rd
    if cls ≥ 6 then lazyLoad h 9 else pure ()
    let tp := (← hartM h).tp
    let (w, n) ← numOp h cls d a b
    if cls ≥ 6 then putBool h o.rd (decide (w = wTrue))
    else do
      writeSpec h o.rd w
      advanceTp h tp n
      pure .seq

/-- CAR and CDR (R209): `off` 0 or 8. -/
def bodyCar (h : Hart) (o : AOps) (insn : BitVec 32) (cls off : Nat) : M Flow := do
  zeroField o.rt
  specsOk [o.rd, o.rs]
  let a ← src h o.rs
  tagUse [a]
  let c ← get
  match c.resolve cls a (.raw 0) with
  | .hw => do
    let w ← loadWord h (a.dat + dat off)
    writeSpec h o.rd w
    pure .seq
  | .nil => do
    writeSpec h o.rd wNil
    pure .seq
  | .blend t _ => do
    let d ← src h o.rd
    enterBlend h (c.vector t cls) cls 0 t.toNat o insn a (.raw 0) d
  | _ => raise { cause := cType }
/-- RPLACA and RPLACD (R209). -/
def bodyRplac (h : Hart) (o : AOps) (insn : BitVec 32) (cls off : Nat) : M Flow := do
  specsOk [o.rd, o.rs, o.rt]
  let a ← src h o.rs
  let v ← src h o.rt
  tagUse [a]
  let c ← get
  match c.resolve cls a v with
  | .hw => do
    lazySpec h o.rd
    storeWord h (a.dat + dat off) v
    writeSpec h o.rd a
    pure .seq
  | .blend t _ => do
    let d ← src h o.rd
    enterBlend h (c.vector t cls) cls 0 t.toNat o insn a v d
  | _ => raise { cause := cType }
/-- GETV and SETV (R211, R212). -/
def bodyVec (h : Hart) (o : AOps) (insn : BitVec 32) (set_ : Bool) : M Flow := do
  let cls := if set_ then 14 else 13
  specsOk [o.rd, o.rs, o.rt]
  let a ← src h o.rs
  let b ← src h o.rt
  let v ← (if set_ then src h o.rd else pure (Word.raw 0))
  tagUse [a, b]
  let c ← get
  match c.resolve cls a b with
  | .hw => do
    let (n, base, sub) ← readHeader h a.dat
    need (decide (b.type = 0x01)) { cause := cType }
    let i := b.dat.toInt
    need (decide (0 ≤ i) && decide (i < n)) { cause := cBounds }
    let at_ := base + dat (8 * i.toNat)
    if set_ then do
      need (!(decide (0xE0 ≤ sub) && decide (sub ≤ 0xEF) && (← get).ptr v)) { cause := cType }
      storeWord h at_ v
    else do writeSpec h o.rd (← loadWord h at_)
    pure .seq
  | .blend t _ => do
    let d ← src h o.rd
    enterBlend h (c.vector t cls) cls 0 t.toNat o insn a b d
  | _ => raise { cause := cType }
/-- UNBOX (R192). -/
def bodyUnbox (h : Hart) (o : AOps) (insn : BitVec 32) : M Flow := do
  zeroField o.rt
  specsOk [o.rd, o.rs]
  let a ← src h o.rs
  tagUse [a]
  let c ← get
  match c.resolve 15 a (.raw 0) with
  | .hw => do
    writeSpec h o.rd (← loadWord h a.dat)
    pure .seq
  | .imm => do
    writeSpec h o.rd (.raw a.dat)
    pure .seq
  | .blend t _ => do
    let d ← src h o.rd
    enterBlend h (c.vector t 15) 15 0 t.toNat o insn a (.raw 0) d
  | _ => raise { cause := cType }
/-- EQ (R190). -/
def bodyEq (h : Hart) (o : AOps) : M Flow := do
  specsOk [o.rd, o.rs, o.rt]
  let a ← src h o.rs
  let b ← src h o.rt
  lazySpec h o.rd
  putBool h o.rd ((← get).wordEq a b)
/-- CONS (R203, R208). -/
def bodyCons (h : Hart) (o : AOps) : M Flow := do
  specsOk [o.rd, o.rs, o.rt]
  let a ← src h o.rs
  let b ← src h o.rt
  let tp ← allocCheck h 2
  lazySpec h o.rd
  storeAll h tp [a, b]
  writeSpec h o.rd ((← get).goodPtr h 0x08 tp)
  advanceTp h tp 2
  pure .seq
/-- TYPEOF (R188). -/
def bodyTypeof (h : Hart) (o : AOps) : M Flow := do
  zeroField o.rt
  specsOk [o.rd, o.rs]
  let a ← src h o.rs
  writeSpec h o.rd (wFix a.type.toNat)
  pure .seq
/-- MKFIX (R191). -/
def bodyMkfix (h : Hart) (o : AOps) : M Flow := do
  zeroField o.rt
  specsOk [o.rd, o.rs]
  let a ← src h o.rs
  tagUse [a]
  need (a.type = 0x00 || a.type = 0x01 || a.type = 0x03) { cause := cType }
  writeSpec h o.rd ⟨0x01, a.dat⟩
  pure .seq
/-- TAGSET (R193, R55, R56): a pointer passes through heal (R454). -/
def bodyTagset (h : Hart) (o : AOps) : M Flow := do
  specsOk [o.rd, o.rs, o.rt]
  needPriv h 1
  let a ← src h o.rs
  let b ← src h o.rt
  let w : Word := ⟨b.dat.extractLsb' 0 8, a.dat⟩
  need ((← get).producible w) { cause := cTagInvalid }
  let v ← (if (← get).ptr w then healFor h w else pure w)
  writeSpec h o.rd v
  pure .seq

/-- The word an operand register holds, as the watchpoints see it. -/
def HartSt.look (x : HartSt) (r : BitVec 6) : Word :=
  match pregOf x.cwp r with
  | some i => x.preg i
  | none => .raw 0
/-- The words CAR, CDR, RPLACA, RPLACD and UNBOX access (R664). -/
def touchCell (h : Hart) (r t : BitVec 6) (off : Nat) (st : Bool) (c : Chip) : List Touch :=
  let w := (c.hart h).look r
  if w.type = t then [{ a := w.dat + dat off, ld := !st, st := st }] else []
/-- The words CONS stores. -/
def touchCons (h : Hart) (c : Chip) : List Touch := [{ a := (c.hart h).tp, n := 2, ld := false, st := true }]
/-- The words GETV and SETV access: the header, the length word of a long form, the element. -/
def touchVec (h : Hart) (o : AOps) (st : Bool) (c : Chip) : List Touch :=
  let w := (c.hart h).look o.rs
  if !(decide (0x09 ≤ w.type.toNat) && decide (w.type.toNat ≤ 0x0D)) then []
  else match readHeader h w.dat c with
    | .ok (_, base, _) _ =>
      [{ a := w.dat, n := (base - w.dat).toNat / 8 },
       { a := base + dat (8 * ((c.hart h).look o.rt).dat.toNat), ld := !st, st := st }]
    | .error _ _ => [{ a := w.dat }]

/-- GADD (R188). -/
def insnGadd (h : Hart) (o : AOps) : Insn := { code := encA 0x02 0x00 o, body := bodyNum h o (encA 0x02 0x00 o) 0 }
def execGadd (h : Hart) (o : AOps) (s : State) : Res := runs h (insnGadd h o) s

/-- GSUB (R188). -/
def insnGsub (h : Hart) (o : AOps) : Insn := { code := encA 0x02 0x01 o, body := bodyNum h o (encA 0x02 0x01 o) 1 }
def execGsub (h : Hart) (o : AOps) (s : State) : Res := runs h (insnGsub h o) s

/-- GMUL (R188). -/
def insnGmul (h : Hart) (o : AOps) : Insn := { code := encA 0x02 0x02 o, body := bodyNum h o (encA 0x02 0x02 o) 2 }
def execGmul (h : Hart) (o : AOps) (s : State) : Res := runs h (insnGmul h o) s

/-- GDIV (R188). -/
def insnGdiv (h : Hart) (o : AOps) : Insn := { code := encA 0x02 0x03 o, body := bodyNum h o (encA 0x02 0x03 o) 3 }
def execGdiv (h : Hart) (o : AOps) (s : State) : Res := runs h (insnGdiv h o) s

/-- GNEG (R188). -/
def insnGneg (h : Hart) (o : AOps) : Insn := { code := encA 0x02 0x04 o, body := bodyNum h o (encA 0x02 0x04 o) 4 }
def execGneg (h : Hart) (o : AOps) (s : State) : Res := runs h (insnGneg h o) s

/-- GASH (R188). -/
def insnGash (h : Hart) (o : AOps) : Insn := { code := encA 0x02 0x05 o, body := bodyNum h o (encA 0x02 0x05 o) 5 }
def execGash (h : Hart) (o : AOps) (s : State) : Res := runs h (insnGash h o) s

/-- GLT (R188). -/
def insnGlt (h : Hart) (o : AOps) : Insn := { code := encA 0x02 0x08 o, body := bodyNum h o (encA 0x02 0x08 o) 6 }
def execGlt (h : Hart) (o : AOps) (s : State) : Res := runs h (insnGlt h o) s

/-- GLE (R188). -/
def insnGle (h : Hart) (o : AOps) : Insn := { code := encA 0x02 0x09 o, body := bodyNum h o (encA 0x02 0x09 o) 7 }
def execGle (h : Hart) (o : AOps) (s : State) : Res := runs h (insnGle h o) s

/-- GEQ (R188). -/
def insnGeq (h : Hart) (o : AOps) : Insn := { code := encA 0x02 0x0A o, body := bodyNum h o (encA 0x02 0x0A o) 8 }
def execGeq (h : Hart) (o : AOps) (s : State) : Res := runs h (insnGeq h o) s

/-- EQ (R190). -/
def insnEq (h : Hart) (o : AOps) : Insn := { code := encA 0x02 0x0B o, body := bodyEq h o }
def execEq (h : Hart) (o : AOps) (s : State) : Res := runs h (insnEq h o) s

/-- CAR (R209). -/
def insnCar (h : Hart) (o : AOps) : Insn := { code := encA 0x02 0x10 o, touch := touchCell h o.rs 0x08 0 false, body := bodyCar h o (encA 0x02 0x10 o) 9 0 }
def execCar (h : Hart) (o : AOps) (s : State) : Res := runs h (insnCar h o) s

/-- CDR (R209). -/
def insnCdr (h : Hart) (o : AOps) : Insn := { code := encA 0x02 0x11 o, touch := touchCell h o.rs 0x08 8 false, body := bodyCar h o (encA 0x02 0x11 o) 10 8 }
def execCdr (h : Hart) (o : AOps) (s : State) : Res := runs h (insnCdr h o) s

/-- RPLACA (R209). -/
def insnRplaca (h : Hart) (o : AOps) : Insn := { code := encA 0x02 0x12 o, touch := touchCell h o.rs 0x08 0 true, body := bodyRplac h o (encA 0x02 0x12 o) 11 0 }
def execRplaca (h : Hart) (o : AOps) (s : State) : Res := runs h (insnRplaca h o) s

/-- RPLACD (R209). -/
def insnRplacd (h : Hart) (o : AOps) : Insn := { code := encA 0x02 0x13 o, touch := touchCell h o.rs 0x08 8 true, body := bodyRplac h o (encA 0x02 0x13 o) 12 8 }
def execRplacd (h : Hart) (o : AOps) (s : State) : Res := runs h (insnRplacd h o) s

/-- CONS (R208). -/
def insnCons (h : Hart) (o : AOps) : Insn := { code := encA 0x02 0x14 o, touch := touchCons h, body := bodyCons h o }
def execCons (h : Hart) (o : AOps) (s : State) : Res := runs h (insnCons h o) s

/-- GETV (R211). -/
def insnGetv (h : Hart) (o : AOps) : Insn := { code := encA 0x02 0x18 o, touch := touchVec h o false, body := bodyVec h o (encA 0x02 0x18 o) false }
def execGetv (h : Hart) (o : AOps) (s : State) : Res := runs h (insnGetv h o) s

/-- SETV (R211). -/
def insnSetv (h : Hart) (o : AOps) : Insn := { code := encA 0x02 0x19 o, touch := touchVec h o true, body := bodyVec h o (encA 0x02 0x19 o) true }
def execSetv (h : Hart) (o : AOps) (s : State) : Res := runs h (insnSetv h o) s

/-- TYPEOF (R188). -/
def insnTypeof (h : Hart) (o : AOps) : Insn := { code := encA 0x02 0x1C o, body := bodyTypeof h o }
def execTypeof (h : Hart) (o : AOps) (s : State) : Res := runs h (insnTypeof h o) s

/-- MKFIX (R191). -/
def insnMkfix (h : Hart) (o : AOps) : Insn := { code := encA 0x02 0x1D o, body := bodyMkfix h o }
def execMkfix (h : Hart) (o : AOps) (s : State) : Res := runs h (insnMkfix h o) s

/-- UNBOX (R192). -/
def insnUnbox (h : Hart) (o : AOps) : Insn := { code := encA 0x02 0x1E o, touch := touchCell h o.rs 0x0F 0 false, body := bodyUnbox h o (encA 0x02 0x1E o) }
def execUnbox (h : Hart) (o : AOps) (s : State) : Res := runs h (insnUnbox h o) s

/-- TAGSET (R193). -/
def insnTagset (h : Hart) (o : AOps) : Insn := { code := encA 0x02 0x1F o, body := bodyTagset h o }
def execTagset (h : Hart) (o : AOps) (s : State) : Res := runs h (insnTagset h o) s

end Sys2Proof.Machine
end

