-- ==== Sys2Proof/Machine/Scrub.lean ====
section
/-! DEFINITION. Patrol and SRAM scrub (R411–R414), and the fast-clear engines of the controllers (R415–R422). -/
namespace Sys2Proof.Machine

/-- A background activity that cannot keep its schedule within its cap falls behind and writes an entry (R640, R647): its row of
the Background activities table, from 0. Whether it does is the schedule's, a free bit (DESIGN CHOICE, log 88). -/
def Chip.behind (c : Chip) (row : Nat) : Chip :=
  if Config.freeBit c.fresh then c.tick.log 10 0 0x0007 (dat row) 0 else c.tick

/-- An error that scrub meets in HBM or a tail store (R411): a modified cached copy stays as it is, and what memory holds is
corrected or marked; UNCORR counts the lines found uncorrectable (R413). -/
def Chip.scrubError (c : Chip) (m : Nat) (e : Latent) : Chip :=
  let tail := match e.place with | .tail _ _ => true | _ => false
  let bad := decide (e.n = 2) || (decide (e.n > 2) && (tail || decide (Config.freeNat c.fresh % 3 = 0)))
  let dirty := c.caches.dirty
  let cur := dirty.map (fun (d : Dirty) => (d.line, grabLine c.mem d.line))
  let c := { c with mem := dirty.foldl (fun (a : List Host.Cell) (d : Dirty) => putLine a d.line d.old) c.mem }
  let c := c.meet e
  let c := { c with
    caches := { c.caches with dirty := dirty.map (fun (d : Dirty) => { d with old := grabLine c.mem d.line }) }
    mem := cur.foldl (fun (a : List Host.Cell) (e : Nat × List Host.Cell) => putLine a e.1 e.2) c.mem }
  if bad then c.setRf (memPage m + 0x120) 47 32 (min (c.rf (memPage m + 0x120) 47 32 + 1) 0xFFFF) else c
/-- The granule a place of a controller's memory lies in. -/
def granuleOf (p : Place) : Option Nat :=
  match p with
  | .datumLine l => some (l / 8)
  | .tagLine g => some g
  | .tail pa _ => some (pa / 512)
  | _ => none

/-- Patrol scrub of the slot at POS (R411, R413): its datum lines, its tag line; then the next slot, the tail store last
(DESIGN CHOICE, log 56). -/
def Chip.patrol (c : Chip) (m : Nat) : Chip :=
  if c.ctlFailed.getLsbD m || c.dom (80 + m) ≠ .on || !bit (c.reg (memPage m + 0x118)) 16 then c
  else
    let c := c.behind 0
    let at_ := memPage m + 0x120
    let pos := c.rf at_ 31 0
    let mine := fun (e : Latent) => (granuleOf e.place).any (fun g => decide (slotOfGranule g = pos) && decide (ctlOfGranule g = m))
    let c := (c.latent.filter mine).foldl (fun (c : Chip) e => c.scrubError m e) c
    if pos ≥ c.slots then (c.setRf at_ 31 0 0).setRf at_ 63 48 ((c.rf at_ 63 48 + 1) % 2 ^ 16)
    else c.setRf at_ 31 0 (pos + 1)

/-- SRAM scrub reads every L3 entry and every Caddy entry, and meets the errors there (R414). -/
def Chip.sramScrub (c : Chip) : Chip :=
  (c.behind 1).meetAll (fun p => match p with
    | .cached k _ _ _ => decide (k = .l3)
    | .caddy _ _ => true
    | _ => false)

/-- FC_CTL of a controller. -/
def fcCtlAt (m : Nat) : Nat := memPage m + 0x110
/-- A line of an operation's range that a controller holds (R395, R418). -/
def FcOp.holds (o : FcOp) (m l : Nat) : Bool :=
  decide (o.start / 64 ≤ l) && decide (64 * l < o.start + o.len) && decide (ctlOf (64 * l) = m)
/-- A range covers a line of a controller (R419): nine granules in a row have one of each. -/
def coversCtl (start len m : Nat) : Bool :=
  let g := start / 512
  let n := (start + len - 1) / 512 - g + 1
  decide (len ≠ 0) && (decide (n ≥ 18) || (List.range n).any (fun i => decide (ctlOfGranule (g + i) = m)))
/-- A tag byte RETAG may not write (R417). -/
def Chip.badRetag (c : Chip) (t : Byte) : Bool :=
  let w : Word := ⟨t, 0⟩
  let ty := w.type.toNat
  decide (t = poisonTag) || decide (ty = 0x07) || (decide (0x16 ≤ ty) && decide (ty ≤ 0x1F))
    || (decide (w.colour ≠ 0) && !c.ptr w)

/-- A write of FC_CTL with GO while no operation runs: ERR, and the operation begun, unless it is refused or the controller holds no
line of the range (R417–R419) (DESIGN CHOICE, log 56). -/
def Chip.fcGo (c : Chip) (m : Nat) : Chip :=
  let v := c.reg (fcCtlAt m)
  let start := c.rf (memPage m + 0x100) 37 6 * 64
  let len := c.rf (memPage m + 0x108) 38 6 * 64
  let op := fld v 49 48
  let tag : Byte := BitVec.ofNat 8 (fld v 47 40)
  let err := if start + len > c.dramEnd then 1 else if op ≥ 2 then 2 else if op = 1 && c.badRetag tag then 3 else 0
  let c := c.setRf (fcCtlAt m) 7 4 err
  if err ≠ 0 || !coversCtl start len m then c.setRf (fcCtlAt m) 1 1 1
  else { c.setRf (fcCtlAt m) 0 0 1 with fc := sput m ⟨op = 1, tag, start, len⟩ c.fc }

/-- Errors in the tags the engine reads of mixed lines, in their tag lines or the Caddy, are met first (R418). -/
def Chip.fcTagLines (c : Chip) (m : Nat) (o : FcOp) : Chip :=
  let reads := fun (l : Nat) => o.holds m l && !c.cacheEnv.unif l
  c.meetAll (fun p => match p with
    | .tagLine g => !c.caches.caddy.any (fun e => decide (e.granule = g)) && (List.range 8).any (fun i => reads (8 * g + i))
    | .caddy g i => reads (8 * g + i.val / 8)
    | _ => false)

/-- The words CLEAR leaves: those of other lines, and poisoned ones. -/
def clearKeeps (mem : List Host.Cell) (hold : Nat → Bool) (k : Nat) : Bool :=
  let p := if tagBase ≤ k then (k - tagBase) * 8 else k / 8 * 8
  !hold (lineOfKey k) || decide (cellGet mem (tagBase + p / 8) = poisonTag)

/-- The operation of a controller is performed (R418) (DESIGN CHOICE, log 56). -/
def Chip.fcDone (c : Chip) (m : Nat) : Chip :=
  match c.fc.lookup m with
  | none => c
  | some o =>
    let cached := (c.caches.slots.map (fun s => s.line)).eraseDups
    let c := (cached.filter (o.holds m)).foldl Chip.invalidate c
    let c := c.fcTagLines m o
    let c := (c.harts.filterMap (fun e => e.2.resv.map (fun p => p.toNat / 64))).foldl
      (fun (c : Chip) l => if o.holds m l then c.loseResv l none else c) c
    let c := if o.retag then
        let lines := ((List.range (o.len / 64)).map (fun i => o.start / 64 + i)).filter (o.holds m)
        let tags := (lines.flatMap (fun l => (List.range 8).map (fun i => tagBase + 8 * l + i))).filter
          (fun k => decide (cellGet c.mem k ≠ poisonTag))
        c.agentWrite (tags.map (fun k => (k, o.tag)))
      else
        ({ c with mem := c.mem.filter (fun e => clearKeeps c.mem (o.holds m) e.1) }).forgetAll (fun p => match p with
          | .datumLine l => o.holds m l
          | .tail pa _ => o.holds m (pa / 64)
          | _ => false)
    { (c.setRf (fcCtlAt m) 0 0 0).setRf (fcCtlAt m) 1 1 1 with fc := sdel c.fc m }

/-- PATROL_SCRUB (R411). -/
def execPatrolScrub (m : Fin 9) (s : State) : Res := done s (s.chip.patrol m)

/-- SRAM_SCRUB (R414). -/
def execSramScrub (s : State) : Res := done s s.chip.sramScrub

/-- FAST_CLEAR_COMPLETE (R418). -/
def execFastClearComplete (m : Fin 9) (s : State) : Res := done s (s.chip.fcDone m)

end Sys2Proof.Machine
end

