-- ==== Sys2Proof/Machine/BlendStore.lean ====
section
/-! DEFINITION. The Blend store (R220, R256–R265): images, signatures, loads and swaps, and the abandonment of routines
(R235, R255); the measurement slots (R589). -/
namespace Sys2Proof.Machine
/-- The 48 bytes of a digest. -/
def digestBytes (d : BitVec 384) : List Byte := (List.range 48).map (fun i => d.extractLsb' (8 * i) 8)
/-- The bytes of data, lowest first (R10). -/
def datBytes (l : List Datum) : List Byte := l.flatMap (fun d => bytesOf 8 d.toNat)

/-- A measurement slot, and its extension by 48 bytes (R589). -/
def Chip.slot (c : Chip) (k : Nat) : BitVec 384 := sget c.hdf.slots k 0
def Chip.setSlot (c : Chip) (k : Nat) (d : BitVec 384) : Chip := { c with hdf := { c.hdf with slots := sset c.hdf.slots k d 0 } }
def Chip.extendSlot (c : Chip) (k : Nat) (v : List Byte) : Chip :=
  c.setSlot k (Config.sha384 (digestBytes (c.slot k) ++ v))

/-- RAW words of local DRAM in order, or nothing where one is not RAW, is poisoned or lies elsewhere. -/
def Chip.rawWords (c : Chip) : List Nat → Chip × Option (List Datum)
  | [] => (c, some [])
  | a :: t =>
    let dram := decide (c.region a = .dram)
    let r := c.unitRead a
    if !dram || r.2.tag ≠ 0 then (r.1, none)
    else
      let q := r.1.rawWords t
      (q.1, q.2.map (fun l => r.2.dat :: l))
/-- The n words from an address. -/
def wordsFrom (a n : Nat) : List Nat := (List.range n).map (fun i => a + 8 * i)

/-- The microwords of an image, three words each (R261). -/
def microwords : List Datum → List (BitVec 144)
  | a :: b :: c :: t => (c.extractLsb' 0 16 ++ b ++ a) :: microwords t
  | _ => []

/-- A microword of a cluster's Blend store, by microaddress; an unwritten word is zero (R265). -/
def Chip.blendWord (c : Chip) (k ua : Nat) : BitVec 144 := sget c.blend (k * 2 ^ 14 + ua) 0

/-- The whole Blend store of a cluster as image bytes (R260, R261). -/
def Chip.blendBytes (c : Chip) (k : Nat) : List Byte :=
  (List.range 2048).flatMap (fun i => bytesOf 24 (c.blendWord k (0x3800 + i)).toNat)

/-- The swap's writes: the nine stores, the VMID, GEN and the digests (R258–R262). -/
def Chip.swapIn (c : Chip) (k dst : Nat) (ws : List (BitVec 144)) (vmid : BitVec 12) (gen : Nat) : Chip :=
  let c := { c with
    blend := ws.zipIdx.foldl (fun (m : Sparse (BitVec 144)) (e : BitVec 144 × Nat) => sset m (k * 2 ^ 14 + 0x3800 + dst + e.2) e.1 0) c.blend
    blendVmid := sset c.blendVmid k vmid 0
    blendBad := c.blendBad.filter (fun j => decide (j ≠ k)) }
  let c := c.setRf (bldAt k 0x118) 15 8 gen
  let d := Config.sha384 (c.blendBytes k)
  (List.range 6).foldl (fun (c : Chip) i => c.setReg (bldAt k (0x120 + 8 * i)) (d.extractLsb' (64 * i) 64)) c

/-- What follows each successful swap (R264): slot 8 and the Canary entry. -/
def Chip.measureSwap (c : Chip) (k : Nat) (vmid : BitVec 12) : Chip :=
  let d := Config.sha384 (c.blendBytes k)
  let c := c.extendSlot 8 (digestBytes (Config.sha384 (digestBytes d ++ bytesOf 1 k ++ bytesOf 2 vmid.toNat)))
  c.log 2 k 0x6001 (dat (vmid.toNat + c.rf (bldAt k 0x118) 15 8 * 2 ^ 16)) (d.extractLsb' 0 64)

/-- A load ends (R259). -/
def Chip.loadEnds (c : Chip) (k err : Nat) : Chip :=
  { ((c.setRf (bldAt k 0x118) 7 4 err).setRf (bldAt k 0x118) 1 1 1).setRf (bldAt k 0x118) 0 0 0 with xfers := sdel c.xfers k }

/-- The owner's signature over an image holds (R261): 0, or ERR 2, 3 or 4 (DEDUCED, log 53). -/
def Chip.ownerCheck (c : Chip) (a dst count : Nat) (image : List Datum) : Chip × Nat :=
  match c.rawWords (wordsFrom a 25) with
  | (c, none) => (c, 2)
  | (c, some l) =>
    let b := datBytes l
    let key := (b.drop 96).take 97
    if !Config.ecdsaVerify (Config.sha384 (datBytes image ++ bytesOf 2 dst ++ bytesOf 2 count)) key (b.take 96) then (c, 3)
    else if c.hdf.blendKey = some (Config.sha384 key) then (c, 0)
    else (c, 4)

/-- BLD_XFER with GO = 1 (R257, R259, R262): the fetch and its checks into the cluster's buffer (DEDUCED, log 53). -/
def Chip.blendLoad (c : Chip) (k : Nat) : Chip :=
  if bit (c.reg (bldAt k 0x118)) 0 then c.setRf (bldAt k 0x118) 7 4 5
  else
    let x := c.reg (bldAt k 0x108)
    let count := fld x 43 32
    let dst := fld x 10 0
    let a := c.rf (bldAt k 0x100) 51 6 * 64
    if count < 1 ∨ count > 2048 ∨ dst + count > 2048 then c.loadEnds k 1
    else
      match c.rawWords (wordsFrom a (3 * count)) with
      | (c, none) => c.loadEnds k 2
      | (c, some l) =>
        let r := if bit (c.reg (bldAt k 0x110)) 12 then c.ownerCheck (a + 24 * count) dst count l else (c, 0)
        if r.2 ≠ 0 then r.1.loadEnds k r.2
        else
          let c := r.1.setReg (bldAt k 0x118) (setFld (setFld (r.1.reg (bldAt k 0x118)) 7 4 0) 0 0 1)
          { c with xfers := sput k ⟨dst, microwords l⟩ c.xfers }

/-- A hart of the cluster runs a routine that is not at a commit point. -/
def Chip.midRoutine (c : Chip) (k : Nat) : Bool :=
  (c.hartsIn k).any (fun h => match (c.hart h).micro with | some m => !m.atCommit | none => false)

/-- The swap (R262, R263): routines in progress are abandoned at their commit points, then the stores are written
(DEDUCED, log 53). -/
def Chip.blendSwap (c : Chip) (k : Nat) : Chip :=
  match c.xfers.lookup k with
  | none => c
  | some x =>
    if c.midRoutine k || c.dom (clusterDom k) ≠ .on then c
    else
      let c := (c.hartsIn k).foldl Chip.abandon c
      let vmid : BitVec 12 := BitVec.ofNat 12 (c.rf (bldAt k 0x110) 11 0)
      let c := c.swapIn k x.dst x.words vmid ((c.rf (bldAt k 0x118) 15 8 + 1) % 256)
      (c.measureSwap k vmid).loadEnds k 0

/-- BLEND_SWAP (R262). -/
def execBlendSwap (k : BitVec 6) (s : State) : Res := done s (s.chip.blendSwap k.toNat)

end Sys2Proof.Machine
end

