-- ==== Sys2Proof/Machine/HostLink.lean ====
section
/-! DEFINITION. The PCIe endpoint (R559–R581): requests through BAR2 and BAR4, the link and its resets, loads from the host
window, and IDE streams. -/
namespace Sys2Proof.Machine

/-- The PCI page. -/
def pci : Nat := Blk.pci.base 0
/-- The host link carries requests: released, up, and PERST_N high (R560, R571). -/
def Chip.linkOk (c : Chip) : Bool := c.pcie.released && c.pcie.linkUp && !c.pcie.perst && decide (c.dom 93 = .on)
/-- Change the endpoint's state. -/
def Chip.modPcie (c : Chip) (f : Pcie → Pcie) : Chip := { c with pcie := f c.pcie }
/-- The stream a request came on is secure (R568, R581). -/
def Chip.streamOk (c : Chip) (q : HostReq) : Bool :=
  match q.stream with
  | none => true
  | some n => c.pcie.ide.any (fun i => decide (i.id = n) && i.secure)
/-- The endpoint takes a request (DEDUCED, log 58). -/
def Chip.takes (c : Chip) (q : HostReq) : Bool := c.linkOk && c.streamOk q

/-- The words that bytes at a PA touch. -/
def touched (p n : Nat) : List Nat := if n = 0 then [] else (List.range ((p + n - 1) / 8 - p / 8 + 1)).map (fun i => 8 * (p / 8 + i))
/-- HBM is read for the lines of some bytes, their modified copies recalled (R360). -/
def Chip.readLines (c : Chip) (p n : Nat) : Chip :=
  ((touched p n).map (fun w => w / 64)).eraseDups.foldl (fun (c : Chip) l => c.agentRead l true) c
/-- The tags alone of those lines are read: a change of tags reads no data (R405). -/
def Chip.readTagsOf (c : Chip) (p n : Nat) : Chip :=
  ((touched p n).map (fun w => w / 64)).eraseDups.foldl (fun (c : Chip) l => (c.recall l).readTags l) c

/-- Bytes written to datum DRAM from outside (R74, R564): each word touched becomes RAW, but a poisoned word keeps all. -/
def Chip.hostBytes (c : Chip) (p : Nat) (l : List Byte) : Chip :=
  let c := c.readLines p l.length
  let ok := fun (w : Nat) => !isPoison (c.word w)
  let bytes := (l.zipIdx.map (fun e => (p + e.2, e.1))).filter (fun e => ok (e.1 / 8 * 8))
  let tags := ((touched p l.length).filter ok).map (fun w => (tagBase + w / 8, (0 : Byte)))
  c.agentWrite (bytes ++ tags)

/-- Datum bytes as the host reads them, and the first poisoned word among them (R565). -/
def Chip.hostView (c : Chip) (p n : Nat) : List Byte × Option Nat :=
  ((List.range n).map (fun i =>
      let w := c.word ((p + i) / 8 * 8)
      if isPoison w then 0xFF else w.dat.extractLsb' (8 * ((p + i) % 8)) 8),
   (touched p n).find? (fun w => isPoison (c.word w)))

/-- The host's poisoned read is counted and logged (R565). -/
def Chip.poisonRead (c : Chip) (p : Nat) : Chip := (c.err pci .host 9 0).log 8 0 0x5004 (dat p) 0

/-- A BAR2 write in the datum window (R564) (DEDUCED, log 58). -/
def Chip.hostWrite (c : Chip) (q : HostReq) (l : List Byte) : Chip :=
  let p := q.off.toNat
  if !c.takes q || decide (p ≥ 2 ^ 38) then c
  else if p + l.length > c.dramEnd then c.emit (.hostUR q.reqid)
  else c.hostBytes p l
/-- A BAR2 read in the datum window (R564, R565). -/
def Chip.hostRead (c : Chip) (q : HostReq) (n : Nat) : Chip :=
  let p := q.off.toNat
  if !c.takes q || decide (p ≥ 2 ^ 38) then c
  else if p + n > c.dramEnd then c.emit (.hostUR q.reqid)
  else
    let c := c.readLines p n
    let v := c.hostView p n
    let c := match v.2 with | some w => c.poisonRead w | none => c
    c.emit (.hostRead q.reqid v.1 v.2.isSome)

/-- The tag aperture accepts a request (R568). -/
def Chip.tagOpen (c : Chip) (q : HostReq) : Bool :=
  let v := c.reg (pci + 0x100)
  bit v 63 && decide (fld v 15 0 = q.reqid.toNat) && (!bit v 62 || decide (q.stream = some (BitVec.ofNat 8 (fld v 55 48))))
/-- Tag bytes written through the aperture (R400, R401). -/
def Chip.tagBytes (c : Chip) (o : Nat) (l : List Byte) : Chip :=
  let w := fun (i : Nat) => (o + i) * 8
  let c := (l.zipIdx.filter (fun e => decide (e.1 = poisonTag))).foldl
    (fun (c : Chip) (e : Byte × Nat) => c.err (memPage (ctlOf (w e.2))) .host 9 0) c
  c.agentWrite ((l.zipIdx.filter (fun e => decide (e.1 ≠ poisonTag) && !isPoison (c.word (w e.2)))).map
    (fun e => (tagBase + o + e.2, e.1)))
/-- A request to the BAR2 tag aperture (R399–R401, R568). -/
def Chip.hostTags (c : Chip) (q : HostReq) (wr : Option (List Byte)) (n : Nat) : Chip :=
  let o := q.off.toNat - 2 ^ 38
  let len := match wr with | some l => l.length | none => n
  if !c.takes q || decide (q.off.toNat < 2 ^ 38) then c
  else if !c.tagOpen q || decide (o + len > c.dramEnd / 8) then c.emit (.hostUR q.reqid)
  else
    match wr with
    | some l => (c.readTagsOf (8 * o) (8 * len)).tagBytes o l
    | none =>
      let c := c.readLines (8 * o) (8 * len)
      c.emit (.hostRead q.reqid ((List.range n).map (fun i => (c.word (8 * (o + i))).tag)) false)

/-- A host-window load gets its datum: the thread's landing, or MDR of its routine (R159, R232, R570). -/
def Chip.loadDone (c : Chip) (l : HostLoad) (d : Datum) : Chip :=
  let c := c.modPcie (fun p => { p with loads := p.loads.filter (fun k => decide (k ≠ l)) })
  if (c.hart l.hart).wait ≠ some .hostLoad then c
  else
    match (c.hart l.hart).micro with
    | some m => c.modHart l.hart (fun x => { x with wait := none, micro := some { m with mdr := .raw d } })
    | none => c.resume l.hart (if l.rd = 48 then pure () else
        modM l.hart (fun x => { x with landings := x.landings ++ [⟨l.preg, .raw d, 3⟩] }))
/-- A host-window load fails (R571): 1 UR, 2 CA, 3 timeout, 4 link down (DEDUCED, log 58). -/
def Chip.loadFail (c : Chip) (pa cause : Nat) : Chip := (c.err pci .hardware 9 0).log 8 0 0x5005 (dat pa) (dat cause)
/-- A waiting load fails, and returns all ones. -/
def Chip.loadFailed (c : Chip) (l : HostLoad) (cause : Nat) : Chip := (c.loadFail l.pa.toNat cause).loadDone l (0 - 1)

/-- A completion for a host-window load (R570, R571). -/
def Chip.windowCompletion (c : Chip) (idx : Nat) (status : BitVec 2) (d : Datum) : Chip :=
  match c.pcie.loads[idx]? with
  | none => c
  | some l => if !c.linkOk || status = 3 then c else if status = 0 then c.loadDone l d else c.loadFailed l status.toNat

/-- The function and link state go to their reset values, and every DMA queue is disabled (R561) (DEDUCED, log 58). -/
def Chip.pciReset (c : Chip) (kind : BitVec 2) : Chip :=
  if kind = 3 || c.mode = .off || c.mode = .standby then c
  else
    let c := c.modPcie (fun p => { p with
      perst := p.perst || decide (kind = 0), linkUp := p.linkUp && decide (kind = 1), msix := [], pba := [], reads := [],
      doeBusy := false, ide := [] })
    let c := (List.range 64).foldl (fun (c : Chip) q => c.setRf (pci + 0x400 + 0x10 * q) 63 63 0) c
    if kind = 1 then c else c.pcie.loads.foldl (fun (c : Chip) l => c.loadFailed l 4) c

/-- The link comes up after PERST_N rises (R571). -/
def Chip.hostLinkUp (c : Chip) : Chip :=
  if c.mode = .off || c.mode = .standby || c.dom 93 ≠ .on then c
  else c.modPcie (fun p => { p with perst := false, linkUp := true })

/-- A configuration request (R560). -/
def Chip.configRequest (c : Chip) : Chip :=
  if !c.pcie.linkUp || c.pcie.perst || c.dom 93 ≠ .on then c
  else c.emit (if c.pcie.released then .configOk else .configRetry)

/-- A write of a vector's MSI-X table entry; an unmasked pending vector sends its message (R577) (PRESUMED, log 8). -/
def Chip.msixWrite (c : Chip) (i : Nat) (lo hi : Datum) : Chip :=
  if !c.linkOk then c
  else
    let c := c.modPcie (fun p => { p with msix := sset p.msix i (lo, hi) (0, dat (2 ^ 32)) })
    if !bit hi 32 && c.pcie.pba.contains i then
      (c.modPcie (fun p => { p with pba := p.pba.filter (fun j => decide (j ≠ i)) })).emit (.msix i)
    else c

/-- A TLP on an IDE stream fails its integrity check (R581). -/
def Chip.ideFailure (c : Chip) (n : BitVec 8) : Chip :=
  if !c.pcie.ide.any (fun i => decide (i.id = n)) then c
  else
    let c := c.modPcie (fun p => { p with ide := p.ide.map (fun i => if i.id = n then { i with secure := false } else i) })
    c.log 8 0 0x5006 (dat n.toNat) 0

/-- HOST_DATUM_WRITE (R564). -/
def execHostDatumWrite (q : HostReq) (bytes : List Byte) (s : State) : Res := done s (s.chip.hostWrite q bytes)
/-- HOST_DATUM_READ (R565). -/
def execHostDatumRead (q : HostReq) (len : Nat) (s : State) : Res := done s (s.chip.hostRead q len)
/-- HOST_TAG_APERTURE_ACCESS (R568). -/
def execHostTagApertureAccess (q : HostReq) (wr : Option (List Byte)) (len : Nat) (s : State) : Res :=
  done s (s.chip.hostTags q wr len)
/-- PCI_RESET (R561). -/
def execPciReset (kind : BitVec 2) (s : State) : Res := done s (s.chip.pciReset kind)
/-- HOST_LINK_UP (R571). -/
def execHostLinkUp (s : State) : Res := done s s.chip.hostLinkUp
/-- CONFIGURATION_REQUEST (R560). -/
def execConfigurationRequest (s : State) : Res := done s s.chip.configRequest
/-- MSIX_TABLE_WRITE (R577). -/
def execMsixTableWrite (i : BitVec 11) (lo hi : Datum) (s : State) : Res := done s (s.chip.msixWrite i.toNat lo hi)
/-- HOST_WINDOW_COMPLETION (R570). -/
def execHostWindowCompletion (idx : Nat) (status : BitVec 2) (data : Datum) (s : State) : Res :=
  done s (s.chip.windowCompletion idx status data)
/-- IDE_FAILURE (R581). -/
def execIdeFailure (stream : BitVec 8) (s : State) : Res := done s (s.chip.ideFailure stream)

end Sys2Proof.Machine
end

