-- ==== Sys2Proof/Machine/Dma.lean ====
section
/-! DEFINITION. The DMA queues (R572–R576). -/
namespace Sys2Proof.Machine

/-- DMA_CTL_q and DMA_PTR_q. -/
def dmaCtlAt (q : Nat) : Nat := pci + 0x400 + 0x10 * q
def dmaPtrAt (q : Nat) : Nat := pci + 0x408 + 0x10 * q

/-- A descriptor (R574). -/
structure DmaDesc where
  q : Nat
  slot : Nat
  op : Nat
  irq : Bool
  fence : Bool
  len : Nat
  haddr : Datum
  maddr : Nat
  err : Nat
  deriving DecidableEq, Repr

/-- Read the descriptor in a slot, with the error its words carry (R574, R576) (DEDUCED, log 57). -/
def Chip.readDesc (c : Chip) (q slot : Nat) : Chip × DmaDesc :=
  let r := (List.range 4).foldl (fun (a : Chip × List Word) i =>
    let u := a.1.unitRead (slot + 8 * i)
    (u.1, a.2 ++ [u.2])) (c, [])
  let w := fun (i : Nat) => (r.2[i]?).getD (Word.raw 0)
  let d := fun (i : Nat) => (w i).dat
  let bad := r.2.any (fun x => decide (x.tag ≠ 0)) || decide (fld (d 0) 57 32 ≠ 0) || decide (fld (d 0) 63 60 ≥ 3)
    || decide (fld (d 2) 63 52 ≠ 0) || decide (fld (d 3) 62 48 ≠ 0)
  let op := fld (d 0) 63 60
  let len := fld (d 0) 31 0
  let maddr := fld (d 2) 51 0
  let nop := decide (op = 0) || decide (len = 0)
  let err := if r.2.any isPoison then 5 else if bad then 4 else if !nop && decide (maddr + len > c.dramEnd) then 2 else 0
  (r.1, ⟨q, slot, if nop then 0 else op, bit (d 0) 59, bit (d 0) 58, len, d 1, maddr, err⟩)

/-- The slot of the next descriptor a queue begins, if one is produced (R572, R573, R575) (DEDUCED, log 57). -/
def Chip.nextSlot (c : Chip) (q : Nat) : Option Nat :=
  let ctl := c.reg (dmaCtlAt q)
  let p := c.reg (dmaPtrAt q)
  let n := (c.pcie.reads.filter (fun r => decide (r.q = q))).length
  let size := fld ctl 43 40
  let avail := (fld p 63 32 + 2 ^ 32 - fld p 31 0) % 2 ^ 32
  if bit ctl 63 && !bit ctl 62 && decide (1 ≤ size) && decide (size ≤ 12) && decide (n < avail) && c.linkOk then
    some (fld ctl 39 0 * 4096 + 32 * ((fld p 31 0 + n) % 2 ^ (size + 4)))
  else none

/-- A descriptor ends (R575, R576): word 3, discarded outside DRAM (R672), then HEAD or the halt, then the message
(DEDUCED, log 57). -/
def Chip.dmaEnd (c : Chip) (q slot : Nat) (irq : Bool) (err len : Nat) : Chip :=
  let c := c.unitWrite (slot + 24) (.raw (dat (2 ^ 63 + err * 2 ^ 32 + len)))
  let c := if err = 0 then c.setRf (dmaPtrAt q) 31 0 ((c.rf (dmaPtrAt q) 31 0 + 1) % 2 ^ 32)
    else (c.setRf (dmaCtlAt q) 62 62 1).setRf (dmaCtlAt q) 63 63 0
  if irq || err ≠ 0 then c.msix (c.rf (dmaCtlAt q) 55 45) else c

/-- Module to host (R575, R576): posted writes; a poisoned word is sent with EP and ends the descriptor (DEDUCED, log 57). -/
def Chip.moduleToHost (c : Chip) (d : DmaDesc) : Chip :=
  let c := c.readLines d.maddr d.len
  let v := c.hostView d.maddr d.len
  match v.2 with
  | none => (c.emit (.dmaWrite d.q d.haddr v.1 false)).dmaEnd d.q d.slot d.irq 0 d.len
  | some w =>
    let n := min d.len (w + 8 - d.maddr)
    ((c.poisonRead w).emit (.dmaWrite d.q d.haddr (v.1.take n) true)).dmaEnd d.q d.slot d.irq 3 n

/-- Host to module (R575): the read request goes out; its completions bring the data. -/
def Chip.hostToModule (c : Chip) (d : DmaDesc) : Chip :=
  (c.emit (.dmaRead d.q d.haddr d.len)).modPcie (fun p => { p with
    reads := p.reads ++ [⟨d.q, BitVec.ofNat 52 d.slot, d.len, d.haddr, BitVec.ofNat 52 d.maddr, d.irq, 0⟩] })

/-- Process the next descriptor of a queue, where it is one of an operation or carries an error. -/
def Chip.dmaNext (c : Chip) (q op : Nat) : Chip :=
  match c.nextSlot q with
  | none => c
  | some slot =>
    let r := c.readDesc q slot
    let d := r.2
    if d.fence && c.pcie.reads.any (fun r => decide (r.q = q)) then c
    else if d.err ≠ 0 then r.1.dmaEnd q slot d.irq d.err 0
    else if d.op ≠ op then c
    else match op with
      | 0 => r.1.dmaEnd q slot d.irq 0 0
      | 1 => r.1.hostToModule d
      | _ => r.1.moduleToHost d

/-- A read request of a descriptor ends. -/
def Chip.dropRead (c : Chip) (r : DmaRead) : Chip :=
  c.modPcie (fun p => { p with reads := p.reads.filter (fun k => decide (k ≠ r)) })
/-- A host read of a descriptor fails (R576). -/
def Chip.dmaReadFailed (c : Chip) (r : DmaRead) : Chip := (c.dropRead r).dmaEnd r.q r.slot.toNat r.irq 1 r.done
/-- Completions for the oldest read of a queue (R575, R576) (DEDUCED, log 57). -/
def Chip.dmaCompletion (c : Chip) (q : Nat) (status : BitVec 2) (data : List Byte) : Chip :=
  match c.pcie.reads.find? (fun r => decide (r.q = q)) with
  | none => c
  | some r =>
    if !c.linkOk then c
    else if status ≠ 0 then c.dmaReadFailed r
    else
      let l := data.take (r.len - r.done)
      let c := c.hostBytes (r.maddr.toNat + r.done) l
      let n := r.done + l.length
      if n = r.len then (c.dropRead r).dmaEnd r.q r.slot.toNat r.irq 0 r.len
      else c.modPcie (fun p => { p with reads := p.reads.map (fun k => if k = r then { k with done := n } else k) })

/-- A completion timer expires (R571, R576): the host-window loads are numbered first, then the DMA reads
(DESIGN CHOICE, log 14). -/
def Chip.timeoutAt (c : Chip) (idx : Nat) : Chip :=
  match c.pcie.loads[idx]?, c.pcie.reads[idx - c.pcie.loads.length]? with
  | some l, _ => c.loadFailed l 3
  | none, some r => c.dmaReadFailed r
  | none, none => c

/-- DMA_NOP (R574). -/
def execDmaNop (q : BitVec 6) (s : State) : Res := done s (s.chip.dmaNext q.toNat 0)
/-- HOST_TO_MODULE (R575). -/
def execHostToModule (q : BitVec 6) (s : State) : Res := done s (s.chip.dmaNext q.toNat 1)
/-- MODULE_TO_HOST (R575). -/
def execModuleToHost (q : BitVec 6) (s : State) : Res := done s (s.chip.dmaNext q.toNat 2)
/-- DMA_HOST_COMPLETION (R575). -/
def execDmaHostCompletion (q : BitVec 6) (status : BitVec 2) (data : List Byte) (s : State) : Res :=
  done s (s.chip.dmaCompletion q.toNat status data)
/-- COMPLETION_TIMEOUT (R571). -/
def execCompletionTimeout (idx : Nat) (s : State) : Res := done s (s.chip.timeoutAt idx)

end Sys2Proof.Machine
end

