-- ==== Sys2Proof/Machine/Power.lean ====
section
/-! DEFINITION. Power (R613–R630), modes and resets (R25–R27, R618–R620, R691–R708, R724), sparing (R30–R34), and
background work (R639–R642). -/
namespace Sys2Proof.Machine

/-- The PWR page. -/
def pwr : Nat := Blk.pwr.base 0
/-- Change the power state, the Headframe's state, the pins. -/
def Chip.modPower (c : Chip) (f : Power → Power) : Chip := { c with power := f c.power }
def Chip.modHdf (c : Chip) (f : Headframe → Headframe) : Chip := { c with hdf := f c.hdf }
def Chip.modPins (c : Chip) (f : Pins → Pins) : Chip := { c with pins := f c.pins }

/-- All switched domains OFF. -/
def allOff : Sparse Dom := (List.range 96).map (fun d => (d, Dom.off))
/-- The always-on island is powered (R692). -/
def Chip.powered (c : Chip) : Bool := c.power.aux || c.vinOk
/-- What no engine holds once its domain and the I/O die are off: work in progress of every unit (R613, R692). What R621 keeps
readable of an isolated tile's harts stays until BOOT (DEDUCED, log 59). -/
def Chip.engineReset (c : Chip) : Chip :=
  ({ c with sb := [], caches := ⟨[], [], [], []⟩, tlb := [], tables := [], faulty := [], fc := [], blendBad := [], xfers := [],
            unitWaits := [], unitWords := [], stope := [], slu := [], rounds := [], cageMsgs := [], injections := 0, acted := [],
            alerts := [], tokens := [], held := [], peers := [], remote := [], sends := [], slotTags := [], home := [],
            heldMarks := [], acked := [], termReplies := [], traceSync := [] }).forgetAll (fun p => match p with
    | .nvm _ => false
    | _ => true)

/-- Step 1 of R583: slots 0, 1 and 10 begin again (R589, R590). -/
def Chip.bootStep1 (c : Chip) : Chip :=
  let c := ((c.setSlot 0 0).setSlot 1 0).setSlot 10 0
  let c := (c.extendSlot 0 (digestBytes (Config.imageDigest 0))).extendSlot 1 (digestBytes (Config.imageDigest 1))
  let c := c.extendSlot 10 ([BitVec.ofNat 8 c.hdf.lifecycle.code, BitVec.ofNat 8 (b2n c.hdf.record)]
    ++ (List.range 5).flatMap (fun i => bytesOf 4 (sget c.hdf.fuses i 0)) ++ digestBytes (Config.imageDigest 10))
  c.modHdf (fun h => { h with opened := 0 })

/-- The straps are sampled (R700): HDF_ID shows the sample. -/
def Chip.sampleStraps (c : Chip) : Chip :=
  c.setReg (Blk.hdf.base 0 + 0x100) (setFld (setFld (c.reg (Blk.hdf.base 0 + 0x100)) 9 8 c.pins.bootSel.toNat) 5 0 c.pins.slotId.toNat)

/-- Entering STANDBY (R25, R598, R601, R618): every domain OFF, the I/O die unpowered, the lifecycle state in force
(DEDUCED, log 59). -/
def Chip.toStandby (c : Chip) (trigger : Nat) : Chip :=
  let c := c.setMode .standby trigger
  let c := c.setDoms (List.range 96) .off
  let c := (c.resetDomRegs 96).engineReset
  let c := c.modPcie (fun p => { p with released := false })
  let c := c.modPower (fun p => { p with req := none, shed := 0, parked := [] })
  c.modHdf (fun h => { h with
    step := 0, halted := none, hart0 := false, maint := false, lifecycle := h.next.getD h.lifecycle, next := none })

/-- From OFF to STANDBY (R25, R582, R700). -/
def Chip.offToStandby (c : Chip) : Chip :=
  if c.mode = .off && c.powered && c.pins.pwrEn && c.pins.thermtripN then
    let c := c.toStandby 4
    let c := (c.modHdf (fun h => { h with slots := [] })).sampleStraps.bootStep1
    c.log 10 0 0x0001 (dat c.hdf.lifecycle.code) 0
  else c

/-- The logical blocks of a Canary slot (R641, R657). -/
def slotBlocks (i : Nat) : List Nat := (List.range 20).map (1008 + 20 * i + ·)
/-- A Canary slot holds a block that was retired with no replacement (R718). -/
def Nvm.slotDead (n : Nvm) (i : Nat) : Bool := n.dead.any (fun b => decide (1008 + 20 * i ≤ b) && decide (b < 1028 + 20 * i))
/-- The slot a commit uses (R656), of those that hold no dead block (R718). -/
def Chip.commitSlot (c : Chip) : Option Nat :=
  let sl := fun (s : Nat) => c.canary.slots.lookup s
  let live := (List.range 8).filter (fun s => !c.nvm.slotDead s)
  match live.find? (fun s => match sl s with | some d => !d.valid && !d.prot | none => true) with
  | some s => some s
  | none =>
    let free := live.filter (fun s => match sl s with | some d => !d.prot | none => true)
    free.find? (fun s => free.all (fun t => match sl s, sl t with
      | some a, some b => decide (a.commit.toNat ≤ b.commit.toNat) | _, _ => true))

/-- Entering OFF (R25, R655, R692, R724): a commit cut short leaves its slot invalid; only the time counter, the SEQ
counters, NVM, the key store's record and the fuses are kept (DEDUCED, log 59). -/
def Chip.toOff (c : Chip) : Chip :=
  let c := c.setMode .off 1
  let slots := match c.canary.staging, c.commitSlot with | some _, some s => sdel c.canary.slots s | _, _ => c.canary.slots
  { Chip.reset with
    mode := .off, prev := c.prev, entered := .off, cap128 := c.cap128, lidB := c.lidB,
    ctlFailed := c.ctlFailed, portFailed := c.portFailed, coresLost := c.coresLost, spared := c.spared,
    latent := c.latent.filter (fun e => match e.place with | .nvm _ => true | _ => false)
    time := { Chip.reset.time with counter := c.time.counter, age := c.nvm.age }
    canary := { Chip.reset.canary with slots := slots, commits := c.canary.commits, seqs := c.canary.seqs }
    nvm := c.nvm, pins := c.pins, out := c.out, fresh := c.fresh,
    pcie := { Chip.reset.pcie with released := false, linkUp := false, perst := c.pcie.perst }
    hdf := { Chip.reset.hdf with
      step := 0, fuses := c.hdf.fuses, ownerKey := c.hdf.ownerKey, blendKey := c.hdf.blendKey, himageKey := c.hdf.himageKey,
      lifecycle := c.hdf.lifecycle, next := c.hdf.next, record := c.hdf.record, transLeft := c.hdf.transLeft }
    power := { Chip.reset.power with
      doms := allOff, temps := c.power.temps, inputW := 0, vinMv := c.power.vinMv, aux := c.power.aux,
      vinStable := c.power.vinStable, refLost := c.power.refLost } }

/-- Both supplies out of range lose the time counter and the SEQ counters (R692, R724). -/
def Chip.unpower (c : Chip) : Chip :=
  if c.powered then c
  else { c with time := { c.time with counter := 0 }, canary := { c.canary with seqs := [] } }

/-- Entering BOOT (R25, R582, R700). -/
def Chip.toBoot (c : Chip) : Chip :=
  let c := ({ c.setMode .boot 4 with harts := [], faulted := false, mcSeen := false }).sampleStraps
  c.modHdf (fun h => { h with step := 0, halted := none, hart0 := false, maint := false, bootHold := false })
/-- A boundary-scan instruction holds STANDBY (R668). -/
def Chip.tapHolds (c : Chip) : Bool := decide (3 ≤ c.tap.ir.toNat) && decide (c.tap.ir.toNat ≤ 5)
/-- STANDBY may be left for BOOT (R609, R668). -/
def Chip.mayBoot (c : Chip) : Bool := c.mode = .standby && decide (c.hdf.lifecycle ≠ .scrapped) && !c.tapHolds && !c.acting
/-- A power-on command, or a release of MOD_RST_N, that may act: held while PWR_GOOD is low (R707). -/
def Chip.bootRequest (c : Chip) : Chip :=
  if c.vinOk && c.power.vinStable then c.toBoot else c.modHdf (fun h => { h with bootHold := true })

/-- Failed resources are OFF in DEGRADED (R618). -/
def Chip.failedOff (c : Chip) : Chip :=
  if c.mode ≠ .degraded then c
  else
    let c := (List.range 9).foldl (fun (c : Chip) m => if c.ctlFailed.getLsbD m then c.setDom (80 + m) .off else c) c
    let c := (List.range 4).foldl (fun (c : Chip) p => if c.portFailed.getLsbD p then c.setDom (89 + p) .off else c) c
    [false, true].foldl (fun (c : Chip) r => if c.railState r = 2 then c.setDom (94 + b2n r) .off else c) c

/-- Domains a mode change put in RETAIN return to ON, and their threads go on (R619, R620). -/
def Chip.unpark (c : Chip) : Chip :=
  let l := c.power.parked
  let c := c.modPower (fun p => { p with parked := [], shed := 0 })
  l.foldl (fun (c : Chip) d =>
    if 80 ≤ d ∧ d < 89 ∧ c.ctlFailed.getLsbD (d - 80) then c
    else if d < 80 ∧ d % 10 < 8 then (c.setDom d .on).modCluster (d / 10 * 8 + d % 10) HartSt.powerGo
    else c.setDom d .on) c

/-- Clusters that are ON go to RETAIN (R393): threads stopped, stores drained, caches cleaned. -/
def Chip.parkClusters (c : Chip) (ks : List Nat) : Chip :=
  (ks.filter (fun k => decide (c.dom (clusterDom k) = .on))).foldl (fun (c : Chip) k =>
    let c := (c.modCluster k HartSt.powerStop).drainCluster k
    (c.setDom (clusterDom k) .retain).modPower (fun p => { p with parked := p.parked ++ [clusterDom k] })) c

/-- Every thread of the clusters that are ON is at precise state. -/
def Chip.allPrecise (c : Chip) : Bool :=
  (List.range 64).all (fun k => decide (c.dom (clusterDom k) ≠ .on) || c.clusterPrecise k)

/-- Every line is clean in the L3s, and every tag line in the Caddies: what the controllers' self-refresh keeps is whole (R613,
R619). -/
def Chip.cleanAll (c : Chip) : Chip :=
  let c := (c.caches.dirty.map (fun d => d.line)).foldl Chip.recall c
  let owed := fun (g : Nat) => c.caches.caddy.any (fun e => decide (e.granule = g) && e.dirty)
  let c := (c.meetAll (fun p => match p with | .caddy g _ => owed g | _ => false)).forgetAll (fun p => match p with
    | .tagLine g => owed g
    | _ => false)
  { c with caches := { c.caches with caddy := c.caches.caddy.map (fun e => { e with dirty := false }) } }

/-- Entering QUIESCED (R619). -/
def Chip.toQuiesced (c : Chip) : Chip :=
  let c := { c with entered := c.mode, faulted := false }
  let c := (c.parkClusters (List.range 64)).cleanAll
  let mems := memDoms.filter (fun d => decide (c.dom d = .on))
  let c := (c.setDoms mems .retain).modPower (fun p => { p with parked := p.parked ++ mems })
  c.setMode .quiesced 4

/-- RUN, RUN_CAPPED or RUN_PARTIAL, as R23 and R24 have it. -/
def Chip.runMode (c : Chip) : Mode :=
  if (List.range 80).any (fun d => decide (c.dom d ≠ .on)) then .runPartial
  else if c.limitW < 1100 then .runCapped else .run
/-- Between those three modes (R25): not while a higher trigger of R26 is being acted on. -/
def Chip.pickRun (c : Chip) : Chip := if c.mode.running && !c.acting then c.setMode c.runMode 4 else c

/-- Return to the mode entered from, or to DEGRADED where a fault was recorded (R25, R39); then among the running modes by R23
(DEDUCED, log 59). -/
def Chip.goBack (c : Chip) (trigger : Nat) : Chip :=
  let c := if c.faulted || c.entered = .degraded then c.setMode .degraded (if c.faulted then 3 else trigger)
    else c.setMode c.entered trigger
  ({ c with faulted := false }).unpark.failedOff.pickRun

/-- The domains of PROVISION and MAINTENANCE (R618): clusters and tiles go to OFF, and hold nothing. -/
def Chip.domsFor (c : Chip) (mem : Bool) : Chip :=
  let c := c.modPower (fun p => { p with parked := [], req := none })
  let c := c.setDoms (clusterDoms ++ tileDoms ++ portDoms ++ railDoms) .off
  if mem then c.setDoms (memDoms.filter (fun d => !c.ctlFailed.getLsbD (d - 80))) .on else c.setDoms memDoms .off

/-- Unit stores are loaded from the measured vendor images (R237). -/
def Chip.loadUnits (c : Chip) : Chip :=
  Chip.forgetAll { c with unitStores := [] } (fun p => match p with | .unitStore _ _ _ => true | _ => false)
/-- Entering MAINTENANCE (R25, R237, R583, R618). -/
def Chip.toMaintenance (c : Chip) : Chip := ((c.setMode .maintenance 4).domsFor true).loadUnits

/-- PWR_MODE.REFUSED and DONE (R618). -/
def Chip.modeAnswer (c : Chip) (ok : Bool) : Chip :=
  let c := c.setRf (pwr + 0x100) 33 33 (b2n (!ok))
  if ok then c.setRf (pwr + 0x100) 32 32 1 else c

/-- Any collector context has FLIP_PEND = 1. -/
def Chip.anyFlip (c : Chip) : Bool := (List.range 16).any (fun k => bit (c.reg (ctxReg k 0x38)) 42)
/-- A request of PWR_MODE may be carried out: QUIESCE 1, RESUME 2, MAINTENANCE 3, POWER_ON 4 (R25, R27, R619). -/
def Chip.modeOk (c : Chip) (req : Nat) : Bool :=
  !c.acting && (match req with
    | 1 => (c.mode.running || c.mode = .degraded) && !c.anyFlip
    | 2 | 3 => c.mode = .quiesced
    | 4 => c.mayBoot && c.pins.modRstN
    | _ => false)
/-- A quiesce that must first wait for threads to reach precise state (R393, R619). -/
def Chip.modeWaits (c : Chip) (req : Nat) : Bool := req = 1 && c.modeOk 1 && !c.allPrecise
/-- A request written to PWR_MODE.REQ (DEDUCED, log 59). -/
def Chip.modeRequest (c : Chip) (req : Nat) : Chip :=
  if req = 0 then c
  else if !c.modeOk req then c.modeAnswer false
  else (match req with
    | 1 => c.toQuiesced
    | 2 => c.goBack 4
    | 3 => c.toMaintenance
    | _ => c.bootRequest).modeAnswer true

/-- Enter SURVIVAL (R25, R620, R628–R630), or record the emergency where the module cannot, or where a supply loss or a trip is
being acted on (R26). -/
def Chip.emergencyEntry (c : Chip) (detail index reading sinst : Nat) : Chip :=
  let c := c.log 11 sinst 0x0006 (dat detail) (dat (index * 2 ^ 32 + reading % 2 ^ 32))
  if (c.mode.running || c.mode = .degraded) && !c.acting then
    (({ c with entered := c.mode, faulted := false }).setMode .survival 2).emergencyAt detail
  else c

/-- A reading of a sensor at its SURVIVAL threshold (R628). -/
def Chip.survivalEntry (c : Chip) (k : Nat) (r : BitVec 16) : Chip :=
  if c.mode = .off || decide (k ≥ 89) || decide (zoneOf k r < 2) then c
  else (c.modPower (fun p => { p with temps := sset p.temps k r 0 })).emergencyEntry 1 k r.toNat k

/-- A reading at a trip threshold (R628): SURVIVAL, the freeze; THERMTRIP_N and OFF follow the commit (R711). A mode from which
R25 has no row to SURVIVAL is kept until then (DESIGN CHOICE, log 81). -/
def Chip.thermalTrip (c : Chip) (k : Nat) (r : BitVec 16) : Chip :=
  if c.mode = .off || decide (k ≥ 89) || decide (zoneOf k r < 3) then c
  else
    let c := (c.modPower (fun p => { p with temps := sset p.temps k r 0 })).emergencyEntry 1 k r.toNat k
    c.freeze 4 (trigWord 11 k 0x0006)

/-- A droop detector trips (R629). -/
def Chip.droopTrip (c : Chip) (t k : Nat) (mv : BitVec 16) : Chip :=
  if c.dom (10 * t + 8) ≠ .on then c
  else
    let n := sget c.power.droops t 0 + 1
    let c := c.modPower (fun p => { p with droops := sset p.droops t n 0 })
    if n = 65 || (decide (65 < n) && (c.mode.running || c.mode = .degraded)) then c.emergencyEntry 2 (16 * t + k) mv.toNat (16 * t + k) else c

/-- VIN48 outside 40–60 V for 10 µs (R630). -/
def Chip.supplyEmergency (c : Chip) (mv : Nat) : Chip :=
  if c.mode = .off || (decide (40000 ≤ mv) && decide (mv ≤ 60000)) then c
  else (c.modPower (fun p => { p with vinMv := mv, vinStable := false })).emergencyEntry 3 0 mv 0

/-- REFCLK_TIME is lost, and is present again (R702). -/
def Chip.refclkLoss (c : Chip) : Chip :=
  if c.mode = .off || c.power.refLost then c
  else ((c.modPower (fun p => { p with refLost := true })).setRf (Blk.tim.base 0 + 0x100) 0 0 0).emergencyEntry 3 0 0 0
def Chip.refclkBack (c : Chip) : Chip := c.modPower (fun p => { p with refLost := false })

/-- A limit is still exceeded: a sensor at SURVIVAL, or the input power (R620). -/
def Chip.overLimit (c : Chip) : Bool :=
  c.power.temps.any (fun e => decide (zoneOf e.1 e.2 ≥ 2)) || decide (c.power.inputW > c.limitW)
/-- The clusters of a tile that are ON. -/
def Chip.tileOn (c : Chip) (t : Nat) : List Nat :=
  ((List.range 8).map (fun i => 8 * t + i)).filter (fun k => decide (c.dom (clusterDom k) = .on))
/-- Shed the highest-numbered tile that is not shed (R620, R650). -/
def Chip.tileShed (c : Chip) : Chip :=
  if c.mode ≠ .survival || !c.overLimit then c
  else match (List.range 8).reverse.find? (fun t => !c.power.shed.getLsbD t && !(c.tileOn t).isEmpty) with
    | none => c
    | some t =>
      if !(c.tileOn t).all c.clusterPrecise then c
      else (c.parkClusters (c.tileOn t)).modPower (fun p => { p with shed := p.shed ||| BitVec.ofNat 8 (2 ^ t) })

/-- The emergency has been clear for 100 ms (R25, R620). -/
def Chip.survivalExit (c : Chip) : Chip :=
  if c.mode ≠ .survival || c.overLimit || !c.vinOk || c.power.refLost || c.acting then c else c.goBack 2

/-- No memory, tub or Stope request of a core's threads is outstanding (R32). -/
def Chip.coreQuiet (c : Chip) (core : BitVec 9) : Bool :=
  (coreHarts core).all (fun h =>
    let x := c.hart h
    (x.wait.isNone || decide (x.wait = some .cage)) && x.tub.all (fun e => decide (e.val ≠ .waiting)))
    && c.stope.all (fun q => decide (coreOf q.hart ≠ core))
/-- A core's modified lines go from its L1 to the cluster's L2, an uncorrectable word of one as POISON, and its L1s are empty
(R32). -/
def Chip.moveL1 (c : Chip) (core : BitVec 9) : Chip :=
  let mine := c.caches.dirty.filter (fun d => decide (d.at_ = .l1d) && decide (d.core = core))
  let c := mine.foldl (fun (c : Chip) d =>
    c.setCaches (((c.caches.moveDirty d.line .l2).putL2 c.cacheEnv (core.toNat / 8) d.line (Config.freeNat c.fresh) true).record d.line)) c
  c.setCaches (c.caches.empty (fun s => s.inside .l1i core.toNat || s.inside .l1d core.toNat))
/-- A thread's stored registers and tub entries are read through their codes as its state moves (R29, R31, R36). -/
def Chip.meetHart (c : Chip) (h : Hart) : Chip :=
  let x := c.hart h
  let c := (x.bad.map (fun f => f.preg)).foldl (fun (c : Chip) i => c.meetReg h i) c
  let c := x.tub.foldl (fun (c : Chip) e => e.bad.foldl (fun (c : Chip) f =>
    c.arrayLog (1, (coreOf h).toNat) 7 f.2 (dat e.id) (match e.val with | .word w => w.dat | _ => 0)) c) c
  if x.tub.all (fun e => e.bad.isEmpty) then c
  else c.modHart h (fun y => { y with tub := y.tub.map (fun e =>
    { e with val := if e.bad.any (fun f => decide (f.2 ≥ 2)) then .poison else e.val, bad := [] }) })

/-- A core with a permanent fault is taken over by its cluster's spare (R30–R34, R310, R351): a routine in progress is first
abandoned at its next commit point (R221), and outstanding requests complete. The spare has no translation and no L1 line of
the core. -/
def Chip.coreSparing (c : Chip) (core : BitVec 9) (stall : Nat) : Chip :=
  let k := core.toNat / 8
  if c.spared.contains k || c.dom (clusterDom k) ≠ .on || c.coresLost.contains core.toNat || !c.corePrecise core
    || !c.coreQuiet core
  then c
  else
    let hs := coreHarts core
    let c := hs.foldl Chip.abandon c
    let c := (c.sb.filter (fun e => decide (e.core = core))).foldl Chip.acceptEntry c
    let c := hs.foldl Chip.meetHart (c.moveL1 core)
    let c := hs.foldl (fun (c : Chip) h => c.modHart h (fun x => { x with resv := none })) c
    let c := c.forgetAll (fun p => match p with
      | .control j _ _ _ => decide (j = core)
      | .logic j => decide (j = core)
      | _ => false)
    let c := { c with
      tlb := c.tlb.filter (fun t => decide (t.owner ≠ core.toNat))
      tables := c.tables.filter (fun t => decide (t.owner ≠ core.toNat))
      faulty := c.faulty.filter (fun j => decide (j ≠ core.toNat))
      spared := c.spared ++ [k] }
    let c := c.log 2 k 0x2002 (dat core.toNat) (dat stall)
    match hs.find? (fun h => (c.hart h).running) with
    | none => c
    | some h => c.modHart h (fun x =>
        if x.pSn.isSome then x else { x with pSn := some ⟨dat (4 * core.toNat), 0⟩ })

/-- A reset request acts (R392, R675, R704): stores not accepted are discarded and counted in the ring that is kept (R643), the
registers of the always-on island return to reset, and the module goes to STANDBY. -/
def Chip.resetNow (c : Chip) : Chip :=
  let cores := (c.sb.map (fun (e : SbEntry) => e.core)).eraseDups
  let c := cores.foldl (fun (c : Chip) k =>
    c.logIn 8 1 k.toNat 0x0003 (dat (((c.sb.filter (fun (e : SbEntry) => decide (e.core = k))).map (fun (e : SbEntry) => e.stores)).sum)) 0) c
  let c : Chip := { c with sb := [] }
  let c : Chip := if c.mode.running then c.setMode .degraded 3 else c
  let c : Chip := if c.mode = .standby then c else c.toStandby 4
  let id := c.reg (Blk.hdf.base 0 + 0x100)
  (Chip.setReg { c with pages := [] } (Blk.hdf.base 0 + 0x100) id).modHdf (fun h => { h with resetHeld := false })
/-- The modes in which a reset request is acted on (R704). -/
def Chip.resetActs (c : Chip) : Bool := c.mode.running || c.mode = .degraded || c.mode = .standby
/-- A held reset request is acted on where the module has reached a mode that does so; a supply failure in progress goes
first (R26, R708). -/
def Chip.actHeld (c : Chip) : Chip := if c.hdf.resetHeld && c.resetActs && !c.acting then c.resetNow else c
/-- MOD_RST_N is recognised low (R697, R703, R704). -/
def Chip.resetRequest (c : Chip) (ms : Nat) : Chip :=
  if c.mode = .off then c
  else
    let c := (c.modPins (fun p => { p with modRstN := false })).modHdf (fun h => { h with resetHeld := true })
    let c := if ms ≥ 10 then { c with nvm := { c.nvm with trained := false } } else c
    c.actHeld
/-- MOD_RST_N has been low for 10 ms (R703). -/
def Chip.coldReset (c : Chip) : Chip :=
  if c.mode = .off || c.pins.modRstN then c else { c with nvm := { c.nvm with trained := false } }
/-- MOD_RST_N rises (R25, R704, R707). -/
def Chip.resetReleased (c : Chip) : Chip :=
  if c.mode = .off || c.pins.modRstN then c.modPins (fun p => { p with modRstN := true })
  else
    let c := c.modPins (fun p => { p with modRstN := true })
    if c.mayBoot then c.bootRequest else c

/-- A supply comes within range (R25, R692). -/
def Chip.supplyApplied (c : Chip) (aux : Bool) (mv : Nat) : Chip :=
  let c := c.unpower
  let ok := c.vinOk
  let c := c.modPower (fun p => { p with aux := p.aux || aux, vinMv := mv })
  let c := if ok && c.vinOk then c else c.modPower (fun p => { p with vinStable := false })
  if c.powered then c.pickRun.offToStandby else c
/-- Both supplies are lost (R25, R692). -/
def Chip.supplyLoss (c : Chip) : Chip :=
  let c := if c.mode = .off then c else c.toOff
  (c.modPower (fun p => { p with aux := false, vinMv := 0, vinStable := false })).unpower
/-- PWR_EN rises and falls (R25, R705, R711). -/
def Chip.pwrEnHigh (c : Chip) : Chip := (c.modPins (fun p => { p with pwrEn := true })).offToStandby
def Chip.pwrEnLow (c : Chip) : Chip :=
  let c := c.modPins (fun p => { p with pwrEn := false, thermtripN := true })
  if c.mode = .off || c.acting then c else c.toOff
/-- PWR_FAIL_N falls (R630, R649, R654): HEADFRAME_EMERGENCY and the freeze; the domains go to OFF once staged
(DEDUCED, log 59). -/
def Chip.pwrFail (c : Chip) : Chip :=
  if c.mode = .off then c.modPins (fun p => { p with pwrFailN := false })
  else
    let c := (c.modPins (fun p => { p with pwrFailN := false })).log 11 0 0x0006 4 0
    let c := (c.emergencyAt 4).freeze 3 (trigWord 11 0 0x0006)
    let c := c.modPower (fun p => { p with req := none, parked := [] })
    (c.setRf (pwr + 0x110) 51 51 0).setDoms (List.range 96) .off
/-- VIN48 has been in range for 10 ms (R699, R707). -/
def Chip.pwrGoodRise (c : Chip) : Chip :=
  if c.mode = .off || !c.vinOk then c
  else
    let c := c.modPower (fun p => { p with vinStable := true })
    if c.hdf.bootHold && c.mayBoot then c.toBoot else c

/-- A domain change that software or the host asked for (R613–R617). -/
def Chip.domTo (c : Chip) (d : Nat) (s : Dom) : Chip :=
  if d < 80 ∧ d % 10 < 8 then
    let k := d / 10 * 8 + d % 10
    let c := c.setDom d s
    if s = .on then c.modCluster k HartSt.powerGo else c
  else if d < 80 ∧ d % 10 = 8 then
    let t := d / 10
    (if s = .on then c else c.recallLines (fun l => decide (c.homeTile l = some t))).setDom d s
  else if 89 ≤ d ∧ d < 93 then
    (if s = .off then c.portLinkDown (d - 89) else c).setDom d s
  else c.setDom d s

/-- PWR_DOM_REQ. -/
def domReqAt : Nat := pwr + 0x110
/-- The ERR of a domain request (R611, R614) (DEDUCED, log 59). -/
def Chip.domErr (c : Chip) (d : Nat) (t : Nat) : Nat :=
  let cluster := decide (d < 80) && decide (d % 10 < 8)
  let off := fun (k : Nat) => decide (c.dom k = .off)
  let held := (c.hartsIn (d / 10 * 8 + d % 10)).any (fun h => (c.hart h).run = .dbg &&
    c.hdf.dbgs.any (fun s => decide (s.cls = 2) && s.covers h (c.hart h)))
  if bit (c.reg domReqAt) 51 then 5
  else if t = 3 then 4
  else if d ≥ 93 || (decide (80 ≤ d) && decide (d < 89)) || (t = 1 && !cluster) then 1
  else if !(c.mode.running || c.mode = .factoryTest) then (if c.acting || c.mode = .survival then 3 else 2)
  else if t = 0 && decide (d < 80) && decide (d % 10 = 8) &&
      !((List.range 8).all (fun i => off (d / 10 * 10 + i)) && off (d / 10 * 10 + 9)) then 2
  else if t = 0 && decide (d < 80) && decide (d % 10 = 9) && (List.range 16).any c.ctxEn then 2
  else if c.acting || (cluster && t = 0 && held) then 3
  else 0
/-- A write of PWR_DOM_REQ with GO = 1: ERR and, where accepted, the request (R614, R617). -/
def Chip.domGo (c : Chip) (d t : Nat) : Chip :=
  let e := c.domErr d t
  let c := c.setRf domReqAt 55 52 e
  if e ≠ 0 then c
  else (c.setRf domReqAt 51 51 1).modPower (fun p => { p with req := some (d, if t = 0 then .off else if t = 1 then .retain else .on) })

/-- A held cluster request goes on once its threads are at precise state (R393). -/
def Chip.clusterDrained (c : Chip) (k : Nat) : Chip :=
  match c.power.req with
  | some (d, s) =>
    if d ≠ clusterDom k || s = .on || c.dom d ≠ .on || !c.clusterPrecise k then c
    else
      let c := (c.modCluster k HartSt.powerStop).drainCluster k
      c.modPower (fun p => { p with doms := sset p.doms d .trans .on })
  | none => c

/-- A domain reaches the state requested (R616, R617). -/
def Chip.domReached (c : Chip) (d : Nat) : Chip :=
  match c.power.req with
  | some (e, s) =>
    if c.acting || e ≠ d || (decide (d < 80) && decide (d % 10 < 8) && decide (s ≠ .on) && decide (c.dom d = .on)) then c
    else
      let c := (c.modPower (fun p => { p with req := none })).setRf domReqAt 51 51 0
      (c.domTo d s).pickRun
  | none => c

/-- Input power and supply as measured (R22, R23). -/
def Chip.cappedChange (c : Chip) (w mv : Nat) : Chip :=
  (c.modPower (fun p => { p with inputW := w, vinMv := mv })).pickRun

/-- The sensors of a tile (R686). -/
def tileSensors (t : Nat) : List Nat := (List.range 8).map (fun i => 8 * t + i)
/-- The thermal limit of a tile steps (R625). -/
def Chip.thermalStep (c : Chip) (t : Nat) : Chip :=
  let lim := sget c.power.thermal t 24
  let ms := ((c.time.counter.extractLsb' 48 48).toNat * 10 ^ 9 + (c.time.counter.extractLsb' 16 32).toNat) / 10 ^ 6
  let hot := (tileSensors t).any (fun k => decide ((c.temp k).toInt ≥ throttleAt k * 16))
  let cool := (tileSensors t).all (fun k => decide ((c.temp k).toInt ≤ (throttleAt k - 3) * 16))
  if hot then c.modPower (fun p => { p with thermal := sset p.thermal t (max (lim - 1) 8) 24 })
  else if cool && decide (lim < 24) && decide (c.power.raised.lookup t ≠ some ms) then
    c.modPower (fun p => { p with thermal := sset p.thermal t (lim + 1) 24, raised := sput t ms p.raised })
  else c
/-- The running frequency of a tile (R622). -/
def Chip.cur (c : Chip) (t : Nat) : Nat := fld (c.freqWord t) 28 24
/-- The power limit steps (R626): the fastest tile down, or, in the reverse order, one up. -/
def Chip.powerStep (c : Chip) : Chip :=
  let lim := fun (t : Nat) => sget c.power.power t 24
  let set := fun (t n : Nat) => c.modPower (fun p => { p with power := sset p.power t n 24 })
  if c.limitW < 1100 && decide (c.power.inputW > c.limitW) then
    match (List.range 8).find? (fun t => decide (8 < c.cur t) && (List.range 8).all (fun u => decide (c.cur u ≤ c.cur t))) with
    | some t => set t (c.cur t - 1)
    | none => c
  else if c.power.inputW < c.limitW then
    let low := (List.range 8).filter (fun t => decide (lim t < 24))
    match low.reverse.find? (fun t => low.all (fun u => decide (lim t ≤ lim u))) with
    | some t => set t (lim t + 1)
    | none => c
  else c

/-- The physical block of a logical block, and the free spares (R641, R642). -/
def Nvm.phys (n : Nvm) (b : Nat) : Nat := sget n.map b b
def Nvm.spares (n : Nvm) : List Nat :=
  (List.range 2048).filter (fun p => !n.retired.contains p && !(List.range 1200).any (fun b => decide (n.phys b = p)))
/-- The least-written spare (R642). -/
def Nvm.leastSpare (n : Nvm) : Option Nat :=
  let sp := n.spares
  sp.find? (fun p => sp.all (fun q => decide (sget n.writes p 0 ≤ sget n.writes q 0)))
/-- A logical block is written: its physical block counts it (R642). -/
def Nvm.wrote (n : Nvm) (bs : List Nat) : Nvm :=
  { n with writes := bs.foldl (fun (w : Sparse Nat) b => sset w (n.phys b) (sget w (n.phys b) 0 + 1) 0) n.writes }
/-- The blocks of UCAL and AGE, the HBM training cache, and the lifecycle, key and deployment records, in the order of the
regions (R641) (DEDUCED, log 86). -/
def ucalBlocks : List Nat := (List.range 16).map (928 + ·)
def trainBlocks : List Nat := (List.range 64).map (944 + ·)
def lifeBlocks : List Nat := (List.range 16).map (1168 + ·)

/-- A physical block fails its write verify: it is retired, and the logical block is remapped from the pool, or is dead where the
pool is empty (R642, R718); SPARE at 0 sets the NVM page's interrupt. -/
def Chip.retireBlock (c : Chip) (b : Nat) : Chip :=
  let n := c.nvm
  let c := { c with latent := c.latent.filter (fun e => match e.place with
    | .nvm p => decide (p.toNat ≠ n.phys b)
    | _ => true) }
  match n.leastSpare with
  | none => { c with nvm := { n with retired := n.retired ++ [n.phys b], dead := n.dead ++ [b] } }
  | some p =>
    let m : Nvm := { n with retired := n.retired ++ [n.phys b], map := sset n.map b p b }
    let c : Chip := { c with nvm := m }
    if m.spares.isEmpty then c.irq (Blk.nvm.base 0) 0 else c
/-- One logical block is written until a block verifies, or none is left: `fuel` bounds the blocks tried. -/
def Chip.nvmBlock (c : Chip) (b : Nat) : Nat → Chip × Bool
  | 0 => (c, false)
  | n + 1 =>
    if c.nvm.dead.contains b then (c, false)
    else
      let p := c.nvm.phys b
      let d : Chip := { c with nvm := c.nvm.wrote [b] }
      if c.latent.any (fun e => match e.place with | .nvm q => decide (q.toNat = p) | _ => false) then
        (d.retireBlock b).nvmBlock b n
      else (d, true)
/-- Logical blocks of NVM are written (R642, R718): whether every block took its content. -/
def Chip.nvmTry (c : Chip) (bs : List Nat) : Chip × Bool :=
  if c.latent.any (fun e => match e.place with | .nvm _ => true | _ => false) then
    bs.foldl (fun (r : Chip × Bool) b => let (d, ok) := r.1.nvmBlock b 2048; (d, r.2 && ok)) (c, true)
  else ({ c with nvm := c.nvm.wrote bs }, !bs.any c.nvm.dead.contains)
/-- A failed write to a region other than a Canary slot leaves its previous content in force and writes an entry, whose code the
manual does not give (R718) (DESIGN CHOICE, log 86). -/
def Chip.nvmWrite (c : Chip) (bs : List Nat) : Chip × Bool :=
  let (d, ok) := c.nvmTry bs
  if ok then (d, true)
  else
    let b := (bs.find? d.nvm.dead.contains).getD 0
    ((d.log 12 0 0x1002 (dat (b * 2 ^ 16)) (Config.freeDatum d.fresh)).tick, false)

/-- A sensor is re-zeroed (R639): the command brings what it reads from then on, calibrated (R636) (DEDUCED, log 87). -/
def Chip.rezero (c : Chip) (k : Nat) (r : BitVec 16) : Chip :=
  if c.mode = .off || decide (k ≥ 89) then c
  else (c.behind 2).modPower (fun p => { p with temps := sset p.temps k r 0 })
/-- The ageing term (R638, R639): the mean servo correction is what the servo found, which no register keeps
(DESIGN CHOICE, log 50). Whether this is the record of the day that goes to NVM is the schedule's. -/
def Chip.ageing (c : Chip) : Chip :=
  if !c.locked then c
  else
    let age := (Config.freeDatum c.fresh).toInt - (c.calEff 2741).1
    let c := c.behind 5
    let store := Config.freeBit c.fresh
    let c : Chip := { c.tick with time := { c.time with age := age } }
    if !store then c
    else
      let (c, ok) := c.nvmWrite ucalBlocks
      if ok then { c with nvm := { c.nvm with age := age } } else c
/-- A worn logical block moves to the least-written spare, its content preserved where no block verifies (R642). -/
def Chip.wearMove (c : Chip) (b : Nat) : Chip :=
  let n := c.nvm
  let w := fun (p : Nat) => sget n.writes p 0
  match n.leastSpare with
  | some p =>
    if decide (c.mode = .off) || decide (b ≥ 1200) || n.dead.contains b || decide (w (n.phys b) ≤ w p + 10 ^ 6) then c
    else
      let (d, ok) := Chip.nvmBlock { (c.behind 6) with nvm := { n with map := sset n.map b p b } } b 2048
      if ok then d else { d with nvm := { d.nvm with map := n.map, dead := d.nvm.dead.filter (fun e => decide (e ≠ b)) } }
  | none => c

end Sys2Proof.Machine
end

