-- ==== Sys2Proof/Machine/EngineRows.lean ====
section
/-! DEFINITION. The commands of the engines: Stope requests and results, remote responses, the Sluice, the Cage, Drift and
its home side, the time unit, and the resources that fail. -/
namespace Sys2Proof.Machine

/-- Controllers answer their engines: not in self-refresh (R619) (DESIGN CHOICE, log 49). -/
def Chip.memUp (c : Chip) : Bool := decide (c.mode ≠ .quiesced)

/-- A unit engine as the source of a Canary entry (R645): the Sluice of a tile, a Stope unit, or a Drift port. -/
def engineSource (e : BitVec 2) : Nat := if e = 0 then 4 else if e = 1 then 6 else 7
/-- Drift's error for an operation that a unit-store error ends: the manual does not say which of its codes (DESIGN CHOICE, log 85). -/
def storeErrCode : BitVec 16 := 0x0001
/-- WALK_FORWARD (R437). -/
def execWalkForward (idx : Nat) (s : State) : Res := done s (s.chip.walkForward idx)

/-- Fill a tub entry that has not arrived. -/
def HartSt.fillTub (x : HartSt) (id : Nat) (v : TubVal) : HartSt :=
  { x with tub := x.tub.map (fun e => if e.id = id && decide (e.val = .waiting) then { e with val := v, bad := [] } else e) }

/-- The word of a result, as the thread that waits takes it (R54, R79, R175); 418 stands for ZR and NL, which discard. -/
def takeWord (h : Hart) (preg : Nat) (w : Word) (addr : Datum) (kind : Nat) : M Unit := do
  need (!isPoison w) { cause := cPoison, addr := addr, access := kind }
  need ((← get).wellFormed w) { cause := cTagInvalid, addr := addr, access := kind }
  if preg ≥ 418 then pure () else modM h (fun x => x.putPreg preg w)

/-- What a tub entry holds of a word that arrives. -/
def tubWord (w : Word) : TubVal := if isPoison w then .poison else .word w
/-- What a tub entry holds of a Stope error (R429). -/
def tubErr (cause : Nat) : TubVal :=
  if cause = cPoison then .poison
  else .remote (if cause = cAtomRange then 0xFF01 else if cause = cType then 0xFF02 else if cause = cTagInvalid then 0xFF03
    else 0xFF04)

/-- A Stope result or error is delivered to rd, to the tub, or as a deferred store error (R175). -/
def Chip.stopeResult (c : Chip) (idx : Nat) : Chip :=
  match c.stope[idx]? with
  | none => c
  | some q =>
    match q.result with
    | none => c
    | some r =>
      let kind := if q.op = 5 then 2 else 4
      let d := { c with stope := c.stope.eraseIdx idx }
      match q.dest with
      | .reg p =>
        if (c.hart q.hart).wait ≠ some .stope then d
        else d.resume q.hart (match r with
          | .word w => takeWord q.hart p w q.va kind
          | .err cause addr detail stage level ipa =>
            raise { cause := cause.toNat, addr := addr, access := kind, detail := detail.toNat, stage := stage.toNat,
                    level := level.toNat, ipa := ipa })
      | .tub id => d.modHart q.hart (fun x => x.fillTub id (match r with
          | .word w => tubWord w
          | .err cause _ _ _ _ _ => tubErr cause.toNat))
      | .none =>
        match r with
        | .word _ => d
        | .err _ addr _ _ _ _ =>
          if (c.hart q.hart).run = .off then d else d.raiseDse q.hart addr 1 0 q.regime.priv.toNat
/-- STOPE_RESULT (R175). -/
def execStopeResult (idx : Nat) (s : State) : Res := done s (s.chip.stopeResult idx)

/-- The words a local tub load reads when it arrives (R170): after the load barrier, or the error the entry holds. -/
def Chip.tubArrive (c : Chip) (h : Hart) (slot : Nat) : Chip :=
  match (c.hart h).tub[slot]? with
  | none => c
  | some e =>
    match e.pa with
    | none => c
    | some p =>
      if e.val ≠ .waiting || !c.memUp then c
      else
        let x : Xl := { pa := p.toNat, mono := e.mtype, w := e.leafW }
        let m : M TubVal := do
          let w ← readAt h x
          if isPoison w then pure .poison
          else do
            let v ← deliver h x e.addr 2 w
            pure (.word v)
        match m c with
        | .ok v d => d.modHart h (fun x => x.fillTub e.id v)
        | .error .wait d => c.keepStalls d
        | .error _ d => d.modHart h (fun x => x.fillTub e.id .invalid)
/-- TUB_ENTRY_ARRIVAL (R170). -/
def execTubEntryArrival (h : Hart) (slot : BitVec 5) (s : State) : Res := done s (s.chip.tubArrive h slot.toNat)

/-- A word of a remote load as it enters a tub entry: after the load barrier (R446); none where it waits for a heal. -/
def Chip.remoteTub (c : Chip) (h : Hart) (w : Word) : Chip × Option TubVal :=
  if !isPoison w && c.stale (c.hart h) w then
    match healFor h w c with
    | .ok v d => (d, some (tubWord v))
    | .error .wait d => (d, none)
    | .error _ d => (d, some .invalid)
  else (c, some (tubWord w))

/-- A response completes the operation it answers (R535, R536, R538, R545); `before` stands where its word waits for a heal. -/
def Chip.remoteDone (before c : Chip) (o : RemoteOp) (r : Record) : Chip :=
  let err := r.err.toNat
  let d := { c with remote := c.remote.filter (fun (p : RemoteOp) => decide (p ≠ o)) }
  let w := (r.words[0]?).getD (.raw 0)
  if o.op = 0x07 then
    if err = 0 then { d with sends := d.sends ++ [o] } else d.refuse o err
  else if o.op = 0x02 then
    if err = 0 || decide ((c.hart o.hart).run = .off) then d
    else (d.log 7 4 0x5003 o.addr (dat err)).raiseDse o.hart o.addr 2 0 o.priv.toNat
  else
    match o.dest with
    | .reg p =>
      if (c.hart o.hart).wait ≠ some .remote then d
      else d.resume o.hart (if err = 0 then takeWord o.hart p w o.addr 10
        else raise { cause := cRemote, addr := o.addr, access := 10, detail := err })
    | .tub id =>
      if err ≠ 0 then d.modHart o.hart (fun x => x.fillTub id (.remote r.err))
      else match d.remoteTub o.hart w with
        | (d, some v) => d.modHart o.hart (fun x => x.fillTub id v)
        | (d, none) => before.keepStalls d
    | .none => d

/-- An operation that a unit-store error of its port ends (R241). -/
def Chip.remoteEnds (c : Chip) (o : RemoteOp) : Chip :=
  c.remoteDone c o ⟨o.op ||| 0x80, o.win, o.rtag, storeErrCode, o.hart, o.addr, []⟩
/-- The operations in flight in an engine whose store failed end with errors (R241): at a Stope unit with POISON, at a Drift port
with an error code. Which of them the unit holds is open, and a Sluice engine holds none between two steps of its work
(DESIGN CHOICE, log 85). -/
def Chip.endUnitOps (c : Chip) (e : BitVec 2) (i : Nat) : Chip :=
  let c : Chip := { c with
    unitWaits := c.unitWaits.filter (fun w => !inEngine w.1 e i)
    unitWords := c.unitWords.filter (fun w => !inEngine w.1 e i) }
  if e = 1 then
    (c.stope.filter (fun q => decide (q.ctl = i / 8) && q.result.isNone)).foldl (fun (c : Chip) q =>
      if Config.freeBit c.fresh then c.tick.setStope q { q with result := some (opErr cPoison q.va), forward := none } else c.tick) c
  else if e = 2 then c.remote.foldl (fun (c : Chip) o => if Config.freeBit c.fresh then c.tick.remoteEnds o else c.tick) c
  else c
/-- Errors in an engine's store are met as its context fetches (R241): a single bit is corrected; a word that cannot be is a machine
check to every monitor, and the Headframe reloads the store. -/
def Chip.meetUnit (c : Chip) (e : BitVec 2) (i : Nat) : Chip :=
  let es := c.latent.filter (fun f => match f.place with | .unitStore e' i' _ => decide (e' = e) && decide (i' = i) | _ => false)
  let at_ := fun (f : Latent) => match f.place with | .unitStore _ _ w => dat w | _ => 0
  let src := engineSource e
  match es.find? (fun f => decide (f.n ≥ 2)) with
  | none => es.foldl (fun (c : Chip) f => (c.forget f.place).log src i 0x1001 (Config.arrayId 9) (at_ f)) c
  | some f =>
    let c := c.forgetAll (fun p => match p with | .unitStore e' i' _ => decide (e' = e) && decide (i' = i) | _ => false)
    let c := (c.log src i 0x2007 (at_ f) (dat (2 + e.toNat))).machineCheck c.monitors (at_ f) 0x2007 (trigWord src i 0x2007)
    c.endUnitOps e i
/-- STOPE_REQUEST (R427, R241): at one of the eight units of its controller. -/
def execStopeRequest (idx : Nat) (s : State) : Res :=
  let c := s.chip
  done s ((match c.latent.isEmpty, c.stope[idx]? with
    | false, some q => c.tick.meetUnit 1 (8 * q.ctl + Config.freeNat c.fresh % 8)
    | _, _ => c).stopePerform idx)

/-- A response record is taken at the source, in its stream's order (R530, R536). -/
def Chip.remoteResponse (c : Chip) (idx : Nat) : Chip :=
  match c.homeAt idx with
  | none => c
  | some r =>
    if r.rcd.op.toNat < 0x80 then c
    else
      let d := c.dropHome idx
      let answers := fun (o : RemoteOp) => decide (o.node = r.src) && decide (o.rtag = r.rcd.rtag) && decide (o.op ||| 0x80 = r.rcd.op)
      if r.rcd.op = 0x8B then d.termReply r
      else match c.remote.find? answers with
        | some o => c.remoteDone d o r.rcd
        | none =>
          match c.sends.find? answers with
          | some o =>
            if r.rcd.err = 0 then d
            else Chip.refuse { d with sends := d.sends.filter (fun (p : RemoteOp) => decide (p ≠ o)) } o r.rcd.err.toNat
          | none => d
/-- REMOTE_RESPONSE (R536). -/
def execRemoteResponse (idx : Nat) (s : State) : Res := done s (s.chip.remoteResponse idx)

/-- LOAD_LANDING (R159): the results whose second slot has ended land. -/
def execLoadLanding (h : Hart) (s : State) : Res := done s (s.chip.modHart h landDue)

/-- The store buffer entry in a core's slot, where no older entry of its thread holds stores to its line. -/
def Chip.sbOldest (c : Chip) (core : BitVec 9) (slot : Nat) : Option SbEntry :=
  match c.sb.find? (fun e => decide (e.core = core) && decide (e.slot = slot)) with
  | none => none
  | some e =>
    if (c.sb.takeWhile (fun f => decide (f ≠ e))).any (fun f => decide (f.hart = e.hart) && decide (f.line = e.line))
    then none else some e
/-- STORE_ACCEPTED (R364). -/
def execStoreAccepted (core : BitVec 9) (slot : BitVec 5) (s : State) : Res :=
  done s (match s.chip.sbOldest core slot.toNat with | some e => s.chip.acceptEntry e | none => s.chip)

/-- A retired store fails (R270, R77): it is lost, its words keep their values or are poisoned, and the thread hears
(DEDUCED, log 31). -/
def Chip.storeFails (c : Chip) (core : BitVec 9) (slot : Nat) : Chip :=
  match c.sb.find? (fun e => decide (e.core = core) && decide (e.slot = slot)) with
  | none => c
  | some e =>
    let words := ((e.writes.filter (fun w => decide (w.1 < 2 ^ 53))).map
      (fun w => if tagBase ≤ w.1 then w.1 else tagBase + w.1 / 8)).eraseDups
    let d : Chip := { c.tick with sb := c.sb.filter (fun f => decide (f ≠ e)) }
    let d := if Config.freeBit c.fresh then d.coreWrite e.hart (words.map (fun k => (k, poisonTag))) else d
    d.raiseDse e.hart e.va 0 slot e.priv.toNat
/-- STORE_FAILURE (R270). -/
def execStoreFailure (core : BitVec 9) (slot : BitVec 5) (s : State) : Res := done s (s.chip.storeFails core slot.toNat)

/-- CORE_SPARING (R31). -/
def execCoreSparing (core : BitVec 9) (stallNs : BitVec 32) (s : State) : Res :=
  done s (s.chip.coreSparing core stallNs.toNat)
/-- CORE_LOST (R36): in a cluster whose spare is in use. -/
def execCoreLost (core : BitVec 9) (s : State) : Res :=
  let c := s.chip
  let k := core.toNat / 8
  done s (if c.spared.contains k && decide (c.dom (clusterDom k) ≠ .off) && c.corePrecise core then
    (c.coreLost core).failedOff.actHeld else c)
/-- CONTROLLER_FAILED (R36). -/
def execControllerFailed (m : Fin 9) (s : State) : Res :=
  done s (if s.chip.dom (80 + m.val) = .off then s.chip else (s.chip.controllerFailed m.val).failedOff.actHeld)

/-- An engine command acts: memory answers (DESIGN CHOICE, log 49). -/
def whenUp (s : State) (f : Chip → Chip) : Res := done s (if s.chip.memUp then f s.chip else s.chip)

/-- PLANES_CLEARED (R469). -/
def execPlanesCleared (c : BitVec 4) (s : State) : Res := whenUp s (fun d => d.planesClear c.toNat)
/-- ARMED_FLIP (R473): held while QUIESCED (R619). -/
def execArmedFlip (c : BitVec 4) (s : State) : Res := whenUp s (fun d => d.armedFlip c.toNat)
/-- FLIP_ANNOUNCEMENT (R443). -/
def execFlipAnnouncement (c : BitVec 4) (k : BitVec 6) (s : State) : Res := done s (s.chip.announced c.toNat k)
/-- THREAD_SWEEP (R471). -/
def execThreadSweep (h : Hart) (s : State) : Res := whenUp s (fun d => d.sweep h)
/-- FLIP_ACKNOWLEDGEMENT (R470). -/
def execFlipAcknowledgement (c : BitVec 4) (k : BitVec 6) (s : State) : Res := done s (s.chip.acknowledged c.toNat k)
/-- A Sluice engine heals the stale pointer at an address (R449): only where the word is there. -/
def Chip.healRequest (d : Chip) (k : Nat) (w : Word) (a : Nat) : Chip :=
  if d.ctxEn k && decide (a % 8 = 0) && decide (d.region a = .dram) && decide (d.word a = w) && !isPoison w && d.ptr w
    && decide (w.colour ≠ d.ctxGood k) then (d.scanWord k a).1 else d
/-- HEAL_REQUEST (R449, R241): by one of the engines. -/
def execHealRequest (c : BitVec 4) (w : Word) (a : BitVec 52) (s : State) : Res :=
  whenUp s (fun d =>
    (if d.latent.isEmpty then d else d.tick.meetUnit 0 (Config.freeNat d.fresh % 8)).healRequest c.toNat w a.toNat)
/-- OBJECT_COPY (R467). -/
def execObjectCopy (c : BitVec 4) (p : BitVec 52) (s : State) : Res := whenUp s (fun d => d.copyMarked c.toNat p)
/-- SLUICE_TRACING (R464): a step of the engine of a tile whose Sluice is ON. -/
def execSluiceTracing (c : BitVec 4) (t : Fin 8) (s : State) : Res :=
  whenUp s (fun d => if d.dom (10 * t.val + 9) = .on then d.traceStep c.toNat else d)
/-- TRACE_TERMINATION_ROUND (R465). -/
def execTraceTerminationRound (c : BitVec 4) (s : State) : Res := whenUp s (fun d => d.termRound c.toNat)

/-- CAGE_MESSAGE_MERGE (R490, R491, R509): a rail that the flit fails is OFF in DEGRADED (R618). -/
def execCageMessageMerge (idx : Nat) (rail : Bool) (s : State) : Res :=
  let c := s.chip.mergeMsg idx rail
  done s (if c.railState rail = s.chip.railState rail then c else c.failedOff.actHeld)
/-- ROUND_RESULT_DELIVERY (R499). -/
def execRoundResultDelivery (g : BitVec 4) (s : State) : Res := done s (s.chip.roundDone g.toNat)
/-- CAGE_IRQ (R502). -/
def execCageIrq (h : Hart) (g : BitVec 4) (s : State) : Res := done s (s.chip.alertHart h g)
/-- A bucket gains a token; the injection it holds first goes, and a thread's goes on (R504, R505, R475). -/
def Chip.refill (c : Chip) (src : Nat) : Chip :=
  let n := sget c.tokens src 0
  if n = 0 then c
  else
    let c : Chip := { c with tokens := sset c.tokens src (n - 1) 0 }
    match c.held.find? (fun e => decide (e.1 = src)) with
    | none => c
    | some e =>
      let c : Chip := { c with held := c.held.filter (fun f => decide (f ≠ e)) }
      match e.2 with
      | .thread m =>
        let c := c.inject m
        if (c.hart m.hart).wait = some .cage then c.resume m.hart (pure ()) else c
      | m => c.unitSent src m
/-- TOKEN_REFILL (R504): the bucket of a hart, of a tile's engine, or of the flip controller. -/
def execTokenRefill (src : BitVec 12) (s : State) : Res := done s (s.chip.refill src.toNat)
/-- RAIL_FAILED (R509). -/
def execRailFailed (rail : Bool) (why : BitVec 2) (s : State) : Res :=
  done s (s.chip.railFailed rail why.toNat).failedOff.actHeld

/-- DATA_FRAME (R530): neither applied nor acknowledged while QUIESCED (R619). -/
def execDataFrame (p : Fin 4) (f : Frame) (s : State) : Res := whenUp s (fun c => c.dataFrame p.val f)
/-- ACK (R531). -/
def execAck (p : Fin 4) (f : Frame) (s : State) : Res := done s (s.chip.ackFrame p.val f)
/-- SYN (R529). -/
def execSyn (p : Fin 4) (f : Frame) (s : State) : Res := done s (s.chip.synFrame p.val f)
/-- SYN_ACK (R529). -/
def execSynAck (p : Fin 4) (f : Frame) (s : State) : Res := done s (s.chip.synAckFrame p.val f)
/-- PROBE (R534). -/
def execProbe (p : Fin 4) (f : Frame) (s : State) : Res := done s (s.chip.probeFrame p.val f)
/-- PROBE_ACK (R534). -/
def execProbeAck (p : Fin 4) (f : Frame) (s : State) : Res := done s (s.chip.probeAckFrame p.val f)
/-- PLANE_PROBE (R534). -/
def execPlaneProbe (node : BitVec 18) (plane : Fin 4) (s : State) : Res := done s (s.chip.planeProbe node plane.val)
/-- RETRANSMIT (R531). -/
def execRetransmit (node : BitVec 18) (cage : Bool) (seq : BitVec 32) (s : State) : Res :=
  done s (s.chip.retransmit node cage seq)
/-- PEER_UNREACHABLE (R532). -/
def execPeerUnreachable (node : BitVec 18) (s : State) : Res := done s (s.chip.peerUnreachable node)
/-- PORT_LINK_DOWN (R534). -/
def execPortLinkDown (p : Fin 4) (s : State) : Res := done s (s.chip.portLinkDown p.val)
/-- PORT_LINK_UP (R534). -/
def execPortLinkUp (p : Fin 4) (speed : BitVec 2) (preempt : Bool) (s : State) : Res :=
  done s (s.chip.portLinkUp p.val speed.toNat preempt)
/-- PORT_FAILED (R534). -/
def execPortFailed (p : Fin 4) (s : State) : Res :=
  done s (if s.chip.dom (89 + p.val) = .off then s.chip else (s.chip.portFail p.val).failedOff.actHeld)
/-- DISCARDED_FRAME (R520): counted in the port's page. -/
def execDiscardedFrame (p : Fin 4) (s : State) : Res :=
  done s (if s.chip.dom (89 + p.val) = .on then s.chip.dropFrame p.val else s.chip)

/-- GLD_RECORD (R535). -/
def execGldRecord (idx : Nat) (s : State) : Res := done s (s.chip.homeOp idx (fun o => decide (o = 0x01)))
/-- GST_RECORD (R535). -/
def execGstRecord (idx : Nat) (s : State) : Res := done s (s.chip.homeOp idx (fun o => decide (o = 0x02)))
/-- GAMO_RECORD (R535). -/
def execGamoRecord (idx : Nat) (s : State) : Res :=
  done s (s.chip.homeOp idx (fun o => decide (0x03 ≤ o) && decide (o ≤ 0x06)))
/-- SEND_RECORD (R542). -/
def execSendRecord (idx : Nat) (s : State) : Res := done s (s.chip.sendOp idx)
/-- MARK_RECORD (R546). -/
def execMarkRecord (idx : Nat) (s : State) : Res := done s (s.chip.markOp idx)
/-- FLIP_ACK (R474). -/
def execFlipAck (idx : Nat) (s : State) : Res := done s (s.chip.flipAckOp idx)
/-- FLIP_CONF (R474). -/
def execFlipConf (idx : Nat) (s : State) : Res := done s (s.chip.flipConfOp idx)
/-- TERM_QUERY (R546). -/
def execTermQuery (idx : Nat) (s : State) : Res := done s (s.chip.termOp idx)

/-- PTP_MESSAGE (R553). -/
def execPtpMessage (p : Fin 4) (msg : PtpMsg) (s : State) : Res := done s (s.chip.ptpMessage p.val msg)
/-- PPS_IN_EDGE (R556). -/
def execPpsInEdge (rising : Bool) (s : State) : Res := done s (s.chip.ppsEdge rising)
/-- HOLDOVER_ENTRY (R555). -/
def execHoldoverEntry (s : State) : Res := done s s.chip.holdoverEntry
/-- The place that a fault at a stack byte address is in (R396): the datum line or the granule's tag line there. -/
def Chip.stackPlace (c : Chip) (m a : Nat) : Option Place :=
  if a < 512 * c.slots then (granuleAt m (a / 512)).map (fun g => .datumLine (8 * g + a % 512 / 64))
  else if a < 576 * c.slots then (granuleAt m ((a - 512 * c.slots) / 64)).map .tagLine
  else none
/-- A place that is there to have a fault: powered, and holding something of the architecture's. -/
def Chip.placeOk (c : Chip) (p : Place) : Bool :=
  let dram := fun (pa : Nat) => decide (c.region pa = .dram) && decide (c.dom (80 + ctlOf pa) ≠ .off)
  let core := fun (k : Nat) => decide (c.dom (clusterDom (k / 8)) ≠ .off)
  match p with
  | .stack _ _ => false
  | .datumLine l => dram (64 * l) && !c.inTail (l / 8)
  | .tagLine g => dram (512 * g) && !c.inTail g
  | .cached k u pa _ => decide (pa % 8 = 0) && (c.caches.copyIn k u (pa / 64)).isSome
  | .caddy g _ => c.caches.caddy.any (fun e => decide (e.granule = g))
  | .tail pa _ => decide (pa % 8 = 0) && dram pa && c.inTail (pa / 512)
  | .register h i _ => decide (i < 418) && core (coreOf h).toNat && decide ((c.hart h).run ≠ .off)
  | .tub h id _ => core (coreOf h).toNat && (c.hart h).tub.any (fun e => decide (e.id = id.val) && (match e.val with | .word _ => true | _ => false))
  | .control k ua _ _ => decide (ua.toNat ≥ 0x3000) && core k.toNat
  | .unitStore e i w => decide (i < engineCount e) && decide (w < unitSize e.toNat)
  | .logic k => core k.toNat && !c.coresLost.contains k.toNat
  | .nvm b => !c.nvm.retired.contains b.toNat
  | .flit r => decide (c.railState r = 1)
  | .fec p => bit (c.reg (portAt p.val)) 16
/-- Errors in a protection unit add up (R38). -/
def addBad (l : List RegFault) (f : RegFault) : List RegFault :=
  if l.any (fun e => decide (e.preg = f.preg) && decide (e.part = f.part)) then
    l.map (fun e => if e.preg = f.preg ∧ e.part = f.part then { e with n := e.n + f.n } else e)
  else l ++ [f]
def addPart (l : List (Fin 3 × Nat)) (p : Fin 3) (n : Nat) : List (Fin 3 × Nat) :=
  if l.any (fun e => decide (e.1 = p)) then l.map (fun e => if e.1 = p then (p, e.2 + n) else e) else l ++ [(p, n)]
/-- A physical fault strikes (R29, R36, R38): nothing has met it yet, but codewords a port cannot correct count at once in
FEC_UNCORR (R547). -/
def Chip.strike (c : Chip) (e : Latent) : Chip :=
  let p := match e.place with | .stack m a => (c.stackPlace m.val a).getD e.place | p => p
  if e.n = 0 || !c.placeOk p then c
  else match p with
    | .register h i part => c.modHart h (fun x => { x with bad := addBad x.bad ⟨i, part, e.n⟩ })
    | .tub h id part => c.modHart h (fun x => { x with tub := x.tub.map (fun t =>
        if t.id = id.val then { t with bad := addPart t.bad part e.n } else t) })
    | .fec p => c.setRf (portAt p.val) 63 48 (min (c.rf (portAt p.val) 63 48 + e.n) 0xFFFF)
    | p =>
      if c.latent.any (fun f => decide (f.place = p)) then
        { c with latent := c.latent.map (fun f => if f.place = p then { f with n := f.n + e.n } else f) }
      else { c with latent := c.latent ++ [⟨p, e.n⟩] }
/-- TIME_COUNTER_ADVANCE (R548), and the faults that strike as time passes (DESIGN CHOICE, log 85). -/
def execTimeCounterAdvance (p : Passage) (s : State) : Res :=
  done s (p.faults.foldl Chip.strike (s.chip.advance p.cycles))

/-- The conditions a unit word may wait on, by engine (R237); a context that issues CAGE messages waits only on Cage credits and
time compares (R239). -/
def waitAllowed (w : UnitWait) (u : Sequencer) : Bool :=
  (match u, w.cond with
   | .sluice _ _, .memory | .sluice _ _, .stopeDone | .sluice _ _, .cageAck | .sluice _ _, .timeCompare => true
   | .stope _ _, .memory | .stope _ _, .forward => true
   | .drift _ _, .memory | .drift _ _, .credit _ | .drift _ _, .frame | .drift _ _, .timeCompare => true
   | _, _ => false)
  && (!w.cage || (match w.cond with
    | .cageAck | .timeCompare => true
    | .credit cls => decide (cls = 0)
    | _ => false))
/-- A unit context waits (R238); one that waited has had its condition come true. A word that waits otherwise than R237 and R239
allow is in no store (DESIGN CHOICE, log 52). -/
def Chip.unitWait (c : Chip) (u : Sequencer) (w : UnitWait) : Chip :=
  if !sequencerOk u || !waitAllowed w u then c
  else { c with unitWaits := c.unitWaits.filter (fun e => decide (e.1 ≠ u)) ++ [(u, w)]
                unitWords := c.unitWords.filter (fun e => decide (e.1 ≠ u)) }
/-- The limit of a wait is reached: the context goes on at the word of its expiry branch (R238) (DESIGN CHOICE, log 52). -/
def Chip.waitExpiry (c : Chip) (u : Sequencer) : Chip :=
  match c.unitWaits.find? (fun e => decide (e.1 = u)) with
  | some e =>
    if reached c.now e.2.limit then
      { c with unitWaits := c.unitWaits.filter (fun f => decide (f.1 ≠ u))
               unitWords := c.unitWords.filter (fun f => decide (f.1 ≠ u)) ++ [(u, e.2.expiry)] }
    else c
  | none => c
/-- SEQ_WAIT of a unit's context (R238, R241). -/
def execUnitSeqWait (u : Sequencer) (w : UnitWait) (s : State) : Res :=
  let c := s.chip
  done s ((if c.latent.isEmpty || !sequencerOk u then c else match u with
    | .sluice i _ => c.meetUnit 0 i
    | .stope i _ => c.meetUnit 1 i
    | .drift i _ => c.meetUnit 2 i
    | .core _ => c).unitWait u w)
/-- UNIT_WAIT_EXPIRY (R238). -/
def execUnitWaitExpiry (u : Sequencer) (s : State) : Res := done s (s.chip.waitExpiry u)

end Sys2Proof.Machine
end

