-- ==== Sys2Proof/Machine/PowerRows.lean ====
section
/-! DEFINITION. The commands of power, resets, emergencies and background work. -/
namespace Sys2Proof.Machine

/-- MAINTENANCE_COMPLETE (R25). -/
def execMaintenanceComplete (s : State) : Res :=
  done s (if s.chip.mode = .maintenance && !s.chip.acting then (s.chip.toStandby 4).actHeld else s.chip)
/-- PROVISIONING_ABANDON (R25). -/
def execProvisioningAbandon (s : State) : Res :=
  done s (if s.chip.mode = .provision && !s.chip.acting then (s.chip.toStandby 4).actHeld else s.chip)
/-- FACTORY_TEST_EXIT (R25): the D3 session has ended. -/
def execFactoryTestExit (s : State) : Res :=
  done s (if s.chip.mode = .factoryTest && !s.chip.acting then (s.chip.toStandby 4).actHeld else s.chip)
/-- PWR_EN_ASSERT (R25). -/
def execPwrEnAssert (s : State) : Res := done s s.chip.pwrEnHigh
/-- PWR_EN_DEASSERT (R25). -/
def execPwrEnDeassert (s : State) : Res := done s s.chip.pwrEnLow
/-- SUPPLY_APPLIED (R25). -/
def execSupplyApplied (aux : Bool) (mv : BitVec 32) (s : State) : Res := done s (s.chip.supplyApplied aux mv.toNat)
/-- SUPPLY_LOSS (R25). -/
def execSupplyLoss (s : State) : Res := done s s.chip.supplyLoss
/-- PWR_FAIL_N_ASSERT (R630). -/
def execPwrFailNAssert (s : State) : Res := done s s.chip.pwrFail
/-- PWR_GOOD_RISE (R699). -/
def execPwrGoodRise (s : State) : Res := done s s.chip.pwrGoodRise
/-- RESET_REQUEST (R704). -/
def execResetRequest (heldMs : BitVec 32) (s : State) : Res := done s (s.chip.resetRequest heldMs.toNat)
/-- COLD_RESET (R703). -/
def execColdReset (s : State) : Res := done s s.chip.coldReset
/-- MOD_RST_N_DEASSERT (R25). -/
def execModRstNDeassert (s : State) : Res := done s s.chip.resetReleased
/-- SURVIVAL_ENTRY (R628). -/
def execSurvivalEntry (k : BitVec 7) (reading : BitVec 16) (s : State) : Res := done s (s.chip.survivalEntry k.toNat reading)
/-- TILE_SHED (R620). -/
def execTileShed (s : State) : Res := done s s.chip.tileShed
/-- SURVIVAL_EXIT (R25). -/
def execSurvivalExit (s : State) : Res := done s s.chip.survivalExit.actHeld
/-- THERMAL_TRIP (R628). -/
def execThermalTrip (k : BitVec 7) (reading : BitVec 16) (s : State) : Res := done s (s.chip.thermalTrip k.toNat reading)
/-- DROOP_TRIP (R629). -/
def execDroopTrip (t : Fin 8) (k : BitVec 4) (mv : BitVec 16) (s : State) : Res := done s (s.chip.droopTrip t.val k.toNat mv)
/-- SUPPLY_EMERGENCY (R630). -/
def execSupplyEmergency (mv : BitVec 32) (s : State) : Res := done s (s.chip.supplyEmergency mv.toNat)
/-- REFCLK_TIME_LOSS (R702). -/
def execRefclkTimeLoss (s : State) : Res := done s s.chip.refclkLoss
/-- REFCLK_TIME_RESTORED (R702). -/
def execRefclkTimeRestored (s : State) : Res := done s s.chip.refclkBack
/-- THERMAL_LIMIT_STEP (R625). -/
def execThermalLimitStep (t : Fin 8) (s : State) : Res := done s (s.chip.thermalStep t.val)
/-- POWER_LIMIT_STEP (R626). -/
def execPowerLimitStep (s : State) : Res := done s s.chip.powerStep
/-- FIRST_USE_LIMIT_EXPIRY (R624). -/
def execFirstUseLimitExpiry (t : Fin 8) (s : State) : Res :=
  done s (if s.chip.dom (10 * t.val + 8) = .on then
    s.chip.modPower (fun p => { p with firstUse := sset p.firstUse t.val 24 16 }) else s.chip)
/-- CAPPED_MODE_CHANGE (R23). -/
def execCappedModeChange (inputW vinMv : BitVec 32) (s : State) : Res :=
  done s (s.chip.cappedChange inputW.toNat vinMv.toNat)
/-- CLUSTER_DRAIN_COMPLETE (R393). -/
def execClusterDrainComplete (k : BitVec 6) (s : State) : Res := done s (s.chip.clusterDrained k.toNat)
/-- DOMAIN_TRANSITION_COMPLETE (R617). -/
def execDomainTransitionComplete (d : BitVec 7) (s : State) : Res := done s (s.chip.domReached d.toNat)
/-- THERMAL_REZERO (R639). -/
def execThermalRezero (k : BitVec 7) (reading : BitVec 16) (s : State) : Res :=
  done s (s.chip.rezero k.toNat reading)
/-- PHY_RETRAINING (R639, R640): it pauses a pseudo-channel of a controller that is ON; a step shows only whether it has fallen
behind. -/
def execPhyRetraining (m : Fin 9) (s : State) : Res :=
  done s (if s.chip.dom (80 + m.val) = .on then s.chip.behind 3 else s.chip)
/-- OSCILLATOR_AGEING (R639). -/
def execOscillatorAgeing (s : State) : Res := done s s.chip.ageing
/-- WEAR_LEVELLING_MOVE (R642). -/
def execWearLevellingMove (block : BitVec 11) (s : State) : Res := done s (s.chip.wearMove block.toNat)

end Sys2Proof.Machine
end

