-- ==== Sys2Proof/Machine/CanaryCmd.lean ====
section
/-! DEFINITION. Snapshots: descriptors and copies (R657, R659), the commit of a freeze (R653, R655, R656), CAN_SNAP_CMD
and the watchdog (R658). -/
namespace Sys2Proof.Machine

/-- The CAN page. -/
def can : Nat := Blk.can.base 0

/-- An entry's words. -/
def Entry.words (e : Entry) : List Datum := [e.w0, e.w1, e.p0, e.p1]
/-- Ring sizes in the order of a snapshot: the I/O die, then tiles 0 to 7 (R657). -/
def ringSize (i : Nat) : Nat := if i = 0 then 8192 else 4096
/-- The entries of a slot as words: each ring oldest first, then empty entries (R657). -/
def slotWords (rings : List (List Entry)) : List Datum :=
  (List.range 9).flatMap (fun i =>
    let r := (rings[i]?).getD []
    r.flatMap Entry.words ++ List.replicate (4 * (ringSize i - r.length)) 0)
/-- The lost counts of words 4 to 6: 16 bits each, saturating, four to a word (R657). -/
def lostWords (l : List Nat) : List Datum :=
  (List.range 3).map (fun i => dat ((List.range 4).foldl (fun a j => a + min ((l[4 * i + j]?).getD 0) 0xFFFF * 2 ^ (16 * j)) 0))
/-- A digest's words, byte 0 lowest (R657). -/
def digestWords (d : BitVec 384) : List Datum := (List.range 6).map (fun i => d.extractLsb' (64 * i) 64)
/-- The bytes of words. -/
def wordsBytes (l : List Datum) : List Byte := l.flatMap (fun d => bytesOf 8 d.toNat)

/-- A snapshot's descriptor (R657). -/
def Snapshot.descriptor (s : Snapshot) : List Datum :=
  [dat (s.commit.toNat * 2 ^ 32 + s.trig.toNat * 2 ^ 24 + s.late.toNat * 2 ^ 16 + s.lifecycle.toNat * 2 ^ 8 + b2n s.valid),
   s.time.extractLsb' 0 64, dat ((s.time.extractLsb' 64 32).toNat + b2n s.locked * 2 ^ 32), s.source]
  ++ lostWords s.lost ++ [0] ++ digestWords (Config.sha384 (wordsBytes (slotWords s.rings))) ++ [0, 0]

/-- The snapshot COPY_LIVE writes (R659). -/
def Chip.liveSnapshot (c : Chip) : Snapshot :=
  { commit := 0, trig := 0, late := 0, lifecycle := BitVec.ofNat 8 c.hdf.lifecycle.code, valid := false, prot := false,
    time := c.time.counter, locked := c.locked, source := 0, lost := [], rings := c.ringImage }

/-- Write RAW words from an address of DRAM (R360). -/
def Chip.writeRaws (c : Chip) (a : Nat) (l : List Datum) : Chip :=
  (l.zipIdx.foldl (fun (c : Chip) e => c.agentWrite (wordCells (a + 8 * e.2) (.raw e.1))) c)
/-- Bytes of a snapshot copy (R659). -/
def copyBytes : Nat := 1310848
/-- Write a snapshot's descriptor and entries at an address. -/
def Chip.copyOut (c : Chip) (a : Nat) (s : Snapshot) : Chip := c.writeRaws a (s.descriptor ++ slotWords s.rings)

/-- ERR of a CAN_SNAP_CMD operation, in the order 5, 4, 1, 2, 3 (R659). -/
def Chip.snapErr (c : Chip) (op slot a : Nat) : Nat :=
  let s := c.canary.slots.lookup slot
  let valid := match s with | some d => d.valid | none => false
  let prot := match s with | some d => d.prot | none => false
  if c.canary.frozen then 5
  else if op ≥ 6 then 4
  else if op ≤ 1 && decide (a + copyBytes > c.dramEnd) then 1
  else if op ≠ 1 && op ≠ 5 && !valid then 2
  else if op = 4 && prot then 2
  else if op = 2 && !(List.range 8).any (fun t => decide (t ≠ slot) && !(match c.canary.slots.lookup t with
      | some d => d.prot | none => false)) then 3
  else 0

/-- Change a slot's snapshot. -/
def Chip.modSlot (c : Chip) (slot : Nat) (f : Snapshot → Snapshot) : Chip :=
  match c.canary.slots.lookup slot with
  | some d => { c with canary := { c.canary with slots := sput slot (f d) c.canary.slots } }
  | none => c

/-- CAN_SNAP_CMD with GO = 1, as the register then stands (R659). An operation finishes with its command (DEDUCED, log 65). -/
def Chip.snapGo (c : Chip) : Chip :=
  let v := c.reg (can + 0x110)
  let op := fld v 62 60
  let slot := fld v 59 57
  let a := fld v 51 6 * 64
  let e := c.snapErr op slot a
  let c := c.setRf (can + 0x110) 55 52 e
  if e ≠ 0 then c
  else match op with
    | 0 => match c.canary.slots.lookup slot with | some d => c.copyOut a d | none => c
    | 1 => c.copyOut a c.liveSnapshot
    | 2 => c.modSlot slot (fun d => { d with prot := true })
    | 3 => c.modSlot slot (fun d => { d with prot := false })
    | 4 => c.modSlot slot (fun d => { d with valid := false })
    | _ => c.freeze 5 0

/-- CAN_STATUS as it reads (R653): LOST, COMMITTING and FROZEN follow the rings. -/
def Chip.canStatus (c : Chip) : Datum :=
  let lost := c.canary.lost.foldl (fun a e => a + e.2) 0
  let d := setFld (c.reg (can + 0x100)) 63 32 (min lost 0xFFFFFFFF)
  setFld (setFld d 1 1 (b2n c.canary.staging.isSome)) 0 0 (b2n c.canary.frozen)
/-- CAN_SLOT_s as it reads. -/
def Chip.canSlot (c : Chip) (s : Nat) : Datum :=
  match c.canary.slots.lookup s with
  | some d => dat (d.commit.toNat * 2 ^ 32 + d.trig.toNat * 2 ^ 24 + d.late.toNat * 2 ^ 16 + b2n d.prot * 2 + b2n d.valid)
  | none => 0

/-- The slot a commit comes to be in (R656, R718): one of which a block fails, with no replacement, is never valid again, and the
next is taken. `n` bounds the slots tried. -/
def Chip.commitInto (c : Chip) : Nat → Chip × Option Nat
  | 0 => (c, none)
  | n + 1 =>
    match c.commitSlot with
    | none => (c, none)
    | some i =>
      let (d, ok) := c.nvmTry (slotBlocks i)
      if ok then (d, some i)
      else Chip.commitInto { d with canary := { d.canary with slots := sdel d.canary.slots i } } n
/-- A snapshot is written in its slot (R655, R657); with no slot left it is in none (DESIGN CHOICE, log 86). -/
def Chip.putSnapshot (c : Chip) (s : Snapshot) (i : Option Nat) (lost : List Nat) : Chip :=
  match i with
  | none => { c with canary := { c.canary with staging := none } }
  | some i =>
    let snap : Snapshot := { s with commit := c.canary.commits + 1, lost := lost }
    Chip.setRf { c with canary := { c.canary with
      slots := sput i snap c.canary.slots, commits := c.canary.commits + 1, staging := none } } (can + 0x100) 10 8 i

/-- The snapshot is written (R653, R655, R656): the rings resume, or, after PWR_FAIL_N or a trip, the module goes to OFF
(DEDUCED, log 65). -/
def Chip.commitDone (c : Chip) : Chip :=
  match c.canary.staging with
  | some s =>
    let lost := (8 :: List.range 8).map (fun r => sget c.canary.lost r 0)
    let (c, i) := c.commitInto 8
    let c := c.putSnapshot s i lost
    let bits := s.trig ||| s.late
    if bits.getLsbD 3 || bits.getLsbD 4 then
      (if bits.getLsbD 4 then c.modPins (fun p => { p with thermtripN := false }) else c).toOff
    else
      let owed := c.canary.owed
      let c : Chip := { c with canary := { c.canary with frozen := false, owed := [] } }
      let c := c.logIn 8 10 0 0x7002 (dat (i.getD 0)) (dat (lost.foldl (· + ·) 0))
      owed.foldl (fun (c : Chip) o => c.logIn 8 3 o.1 0x0004 (dat o.2) 0) c
  | none => c
/-- SNAPSHOT_COMMIT_COMPLETE (R653). -/
def execSnapshotCommitComplete (s : State) : Res := done s s.chip.commitDone

/-- The watchdog expires (R658) (DESIGN CHOICE, log 14). -/
def Chip.watchdog (c : Chip) : Chip :=
  if !bit (c.reg (can + 0x108)) 62 || c.mode = .off then c
  else
    let c := c.log 10 0 0x7003 (dat (c.rf (can + 0x108) 31 0)) 0
    ((c.freeze 2 (trigWord 10 0 0x7003)).setRf (can + 0x100) 2 2 1).irq can 1
/-- WATCHDOG_EXPIRY (R658). -/
def execWatchdogExpiry (s : State) : Res := done s s.chip.watchdog

end Sys2Proof.Machine
end

