-- ==== Sys2Proof/Machine/Boot.lean ====
section
/-! DEFINITION. The boot sequence (R582–R588), boot halts (R585), and the extension of slots by software (R592). -/
namespace Sys2Proof.Machine

/-- The SEC page, and its SEC_BOOT_CTL and SEC_EXTEND. -/
def sec : Nat := Blk.sec.base 0
def bootCtlAt : Nat := sec + 0x110
def extendAt : Nat := sec + 0x118

/-- The step of R583 last completed, or step 8 under way. -/
def Chip.setStep (c : Chip) (n : Nat) : Chip := c.modHdf (fun h => { h with step := n })

/-- Step 2: FCAL, UCAL and the owner's identity (R583, R589, R590, R637); RO/V counters begin a new boot at zero (R717). -/
def Chip.bootStep2 (c : Chip) (b : BootRun) : Chip :=
  let c := c.modHdf (fun h => { h with slots := h.slots.filter (fun e => decide (e.1 = 0) || decide (e.1 = 1) || decide (e.1 = 10)) })
  let c := c.extendSlot 2 (digestBytes (Config.imageDigest 2))
  let bytes := c.nvm.ucal.flatMap (fun e => bytesOf 2 e.1 ++ bytesOf 2 (BitVec.ofInt 16 e.2).toNat)
  let c := c.extendSlot 3 (digestBytes (Config.sha384 bytes))
  let c : Chip := { c with nvm := { c.nvm with live := if b.ucalBad then [] else c.nvm.ucal } }
  let c := if b.ucalBad then c.log 10 0 0x0005 2 2 else c
  let c := [c.hdf.ownerKey, c.hdf.blendKey, c.hdf.himageKey].foldl
    (fun (c : Chip) k => c.extendSlot 12 (digestBytes (k.getD 0))) c
  let c := c.setRf (Blk.dbg.base 0 + 0x110) 63 32 0
  if c.canary.frozen then c else { c with canary := { c.canary with lost := [] } }

/-- A core fails its test in BOOT (R719): its cluster's spare takes it over, or it is lost where the spare is in use
(R29, R36) (DEDUCED, log 54). -/
def Chip.coreTest (c : Chip) (core : BitVec 9) : Chip :=
  let k := core.toNat / 8
  if c.spared.contains k then c.coreLost core
  else Chip.log { c with spared := c.spared ++ [k] } 2 k 0x2002 (dat core.toNat) 0

/-- Step 3: the removed resources are tested again (R719), the memory, tile and cluster domains come ON, and a controller that
fails training, or a core that fails its test, fails under R36. Full training writes the cache in NVM (R641). -/
def Chip.bootStep3 (c : Chip) (b : BootRun) : Chip :=
  let full := !c.nvm.trained || decide (c.ctlFailed ≠ 0)
  let c : Chip := { c with coresLost := [], spared := [], ctlFailed := 0, portFailed := 0 }
  let (c, ok) := if full then c.nvmWrite trainBlocks else (c, true)
  let c : Chip := if ok then { c with nvm := { c.nvm with trained := true } } else c
  let c := c.setDoms (memDoms ++ tileDoms ++ clusterDoms) .on
  let c := ((List.range 9).filter (fun m => b.ctlFail.getLsbD m)).foldl Chip.controllerFailed c
  b.coreFail.eraseDups.foldl Chip.coreTest c

/-- Step 4: the tag plane and the datum are cleared (R422); the caches and the Caddies are empty (R408). -/
def Chip.bootStep4 (c : Chip) : Chip :=
  Chip.forgetAll { c with mem := [], caches := ⟨[], [], [], []⟩ } (fun p => match p with
    | .datumLine _ | .tagLine _ | .cached _ _ _ _ | .caddy _ _ | .tail _ _ => true
    | _ => false)

/-- Step 5: the patch, sequencer and Drift images; the rails (R719). -/
def Chip.bootStep5 (c : Chip) (b : BootRun) : Chip :=
  let c := Chip.forgetAll { c.loadUnits with patch := [], matchTable := [] } (fun p => match p with
    | .control _ ua _ _ => decide (ua.toNat < 0x3800)
    | _ => false)
  let c := [4, 5, 6, 7].foldl (fun (c : Chip) k => c.extendSlot k (digestBytes (Config.imageDigest k))) c
  let c := ((c.setDoms railDoms .on).setRf railAt 1 0 1).setRf railAt 9 8 1
  let c := if b.railFail.getLsbD 0 then c.railFailed false 2 else c
  if b.railFail.getLsbD 1 then c.railFailed true 2 else c

/-- Step 6: the provisioned Blend image into every cluster (R265), or the failure marker in slot 8. -/
def Chip.bootStep6 (c : Chip) (b : BootRun) : Chip :=
  let c := Chip.forgetAll { c with blend := [], blendVmid := [], blendBad := [], xfers := [] } (fun p => match p with
    | .control _ _ _ _ => true
    | _ => false)
  let c := (List.range 64).foldl (fun (c : Chip) k => c.setRf (bldAt k 0x118) 15 8 0) c
  if b.halt = 6 then c.extendSlot 8 (List.replicate 48 0xFE)
  else match b.blendImage with
    | none => c
    | some ws => (List.range 64).foldl (fun (c : Chip) k => (c.swapIn k 0 (ws.take 2048) 0 0).measureSwap k 0) c

/-- Step 7: the host link is released, and the ports come up (R560, R719). -/
def Chip.bootStep7 (c : Chip) (b : BootRun) : Chip :=
  let c := (c.setDoms (93 :: portDoms) .on).modPcie (fun p => { p with released := true })
  ((List.range 4).filter (fun p => b.portFail.getLsbD p)).foldl Chip.portFail c

/-- One of steps 1 to 7 (DEDUCED, log 54). -/
def Chip.bootStep (c : Chip) (b : BootRun) (n : Nat) : Chip :=
  (match n with
   | 1 => c.bootStep1
   | 2 => c.bootStep2 b
   | 3 => c.bootStep3 b
   | 4 => c.bootStep4
   | 5 => c.bootStep5 b
   | 6 => c.bootStep6 b
   | _ => c.bootStep7 b).setStep n

/-- The ERR of a start (R587). -/
def Chip.bootErr (c : Chip) : Nat :=
  let v := c.reg bootCtlAt
  let a := fld v 37 16 * 2 ^ 16
  let n := fld v 15 0 * 2 ^ 16
  if c.mode ≠ .boot || c.hdf.step ≠ 8 || c.hdf.hart0 || c.acting then 1
  else if n = 0 then 4
  else if a + n > c.dramEnd then 2
  else if (List.range (n / 8)).any (fun i => isPoison (c.word (a + 8 * i))) then 3
  else 0

/-- BOOT is left for RUN or RUN_CAPPED, and at once for DEGRADED where a resource failed (R23, R39, R583) (DEDUCED, log 54). -/
def Chip.bootEnds (c : Chip) : Chip :=
  let bad := c.faulted
  let c := { c with faulted := false }.setMode (if c.limitW < 1100 then .runCapped else .run) 4
  if bad then ({ c with entered := c.mode }.setMode .degraded 3).failedOff.actHeld else c.actHeld

/-- The image's lines are read, and the errors in them met (R410, R587). -/
def Chip.bootMeet (c : Chip) : Chip :=
  let v := c.reg bootCtlAt
  let a := fld v 37 16 * 2 ^ 16
  let n := fld v 15 0 * 2 ^ 16
  let inside := fun (l : Nat) => decide (a ≤ 64 * l) && decide (64 * l < a + n)
  let hit := c.latent.flatMap (fun e => match e.place with
    | .datumLine l => [l]
    | .tagLine g => (List.range 8).map (fun i => 8 * g + i)
    | .cached _ _ pa _ => [pa / 64]
    | .caddy g _ => (List.range 8).map (fun i => 8 * g + i)
    | .tail pa _ => [pa / 64]
    | _ => [])
  (hit.eraseDups.filter inside).foldl (fun (c : Chip) l => c.agentRead l true) c

/-- SEC_BOOT_CTL with GO = 1, as the register then stands (R588): measure, retag, and start hart 0. -/
def Chip.bootGo (c : Chip) : Chip :=
  let c := c.bootMeet
  let v := c.reg bootCtlAt
  let e := c.bootErr
  let c := c.setRf bootCtlAt 59 56 e
  if e ≠ 0 then c
  else
    let a := fld v 37 16 * 2 ^ 16
    let n := fld v 15 0 * 2 ^ 13
    let c := c.extendSlot 9 (if bit v 62 then
        digestBytes (Config.sha384 (wordsBytes ((List.range n).map (fun i => (c.word (a + 8 * i)).dat))))
      else List.replicate 48 0xFF)
    let c := c.agentWrite ((List.range n).map (fun i => (tagBase + a / 8 + i, (0x15 : Byte))))
    let c := c.setHart 0 { HartSt.reset with run := .run, pc := pcForm (dat a) }
    (c.modHdf (fun h => { h with hart0 := true })).bootEnds

/-- Step 8 under BOOT_SEL (R586) (DEDUCED, log 54). -/
def Chip.bootStep8 (c : Chip) (b : BootRun) : Chip :=
  let c := c.setStep 8
  let sel := c.rf (Blk.hdf.base 0 + 0x100) 9 8
  let c := if sel = 3 then c.log 10 0 0x0005 8 3 else c
  if sel = 1 then c
  else match b.himage with
    | none => c.setRf bootCtlAt 59 56 4
    | some m =>
      if c.hdf.himageKey.isSome && !m.signed then c.setRf bootCtlAt 59 56 5
      else
        let c := m.data.zipIdx.foldl (fun (c : Chip) e => c.unitWrite (m.addr.toNat * 2 ^ 16 + 8 * e.2) (.raw e.1)) c
        (c.setReg bootCtlAt (dat (2 ^ 62 + m.addr.toNat * 2 ^ 16 + m.len.toNat))).bootGo

/-- What follows step 7 (R25, R583) (DESIGN CHOICE, log 55). -/
def Chip.bootLeaves (c : Chip) (b : BootRun) : Chip :=
  if c.rf (Blk.hdf.base 0 + 0x100) 9 8 = 2 || c.hdf.maint then c.toMaintenance.actHeld
  else if c.hdf.record then c.bootStep8 b
  else if c.hdf.lifecycle = .manufacture || c.hdf.lifecycle = .provisioned then ((c.setMode .provision 4).domsFor false).actHeld
  else c.toMaintenance.actHeld

/-- The vendor images that a step verifies: the Headframe firmware in step 1, the patch, Sluice, Stope and Drift images in step 5
(R583, R584). -/
def stepImages (n : Nat) : List Nat := if n = 1 then [0] else if n = 5 then [1, 2, 3, 4] else []
/-- An image's version is below its fuse counter, so that it does not verify (R584). -/
def Chip.oldImage (c : Chip) (b : BootRun) (n : Nat) : Bool :=
  (stepImages n).any (fun i => decide ((b.versions[i]?).getD 0 < sget c.hdf.fuses i 0))
/-- The first successful boot of an image advances its fuse counter to the image's version (R584). -/
def Chip.blowFuses (c : Chip) (b : BootRun) : Chip :=
  c.modHdf (fun h => { h with fuses := (List.range 5).foldl (fun f i => sset f i (max (sget f i 0) ((b.versions[i]?).getD 0)) 0) h.fuses })

/-- The steps that remain, in order; a verification that fails halts the boot (R583–R585). -/
def Chip.bootOn (c : Chip) (b : BootRun) : List Nat → Chip
  | [] => (c.blowFuses b).bootLeaves b
  | n :: t =>
    if ((n = 1 ∨ n = 2 ∨ n = 5) ∧ b.halt.toNat = n) ∨ c.oldImage b n = true then
      (c.log 10 0 0x0005 (dat n) 1).modHdf (fun h => { h with halted := some n })
    else (c.bootStep b n).bootOn b t

/-- BOOT performs its steps (R583) (DEDUCED, log 54). -/
def Chip.bootSequence (c : Chip) (b : BootRun) : Chip :=
  if c.mode ≠ .boot || c.acting || c.hdf.halted.isSome || c.hdf.step ≥ 8 then c
  else c.bootOn b ([1, 2, 3, 4, 5, 6, 7].filter (fun n => decide (c.hdf.step < n)))
/-- BOOT_SEQUENCE (R583). -/
def execBootSequence (b : BootRun) (s : State) : Res := done s (s.chip.bootSequence b)

/-- A vendor-signed image replaces the copy that failed, and the sequence restarts at step 1 (R585). -/
def Chip.replaceImage (c : Chip) (step : Nat) (signed : Bool) : Chip :=
  if c.mode = .boot && decide (c.hdf.halted = some step) && signed then
    c.modHdf (fun h => { h with halted := none, step := 0 })
  else c
/-- REPLACEMENT_IMAGE (R585). -/
def execReplacementImage (step : BitVec 4) (_copyB signed : Bool) (s : State) : Res :=
  done s (s.chip.replaceImage step.toNat signed)

/-- HOST_MAINTENANCE_REQUEST (R583): before step 7 of BOOT. -/
def execHostMaintenanceRequest (s : State) : Res :=
  done s (if s.chip.mode = .boot && decide (s.chip.hdf.step < 7) && !s.chip.acting then
    s.chip.modHdf (fun h => { h with maint := true }) else s.chip)

/-- SEC_EXTEND with GO = 1, as the register then stands (R592). The extension is whole, so BUSY never reads 1
(DEDUCED, log 65). -/
def Chip.extendGo (c : Chip) : Chip :=
  let v := c.reg extendAt
  let k := fld v 55 52
  if k < 13 then c.setRf extendAt 62 60 1
  else
    match c.rawWords (wordsFrom (fld v 51 6 * 64) 6) with
    | (c, none) => c.setRf extendAt 62 60 2
    | (c, some l) => (c.setRf extendAt 62 60 0).extendSlot k (datBytes l)

/-- ENTDAA (R596): the module answers with its provisioned ID, SLOT_ID as sampled (R700) in the low bits, and takes its dynamic
address on I3C. -/
def execEntdaa (addr : BitVec 7) (s : State) : Res :=
  let slot := BitVec.ofNat 6 (s.chip.rf (Blk.hdf.base 0 + 0x100) 5 0)
  done s (if s.chip.mode = .off then s.chip
    else (s.chip.emit (.i3cId (Config.i3cPid ++ slot))).modHdf (fun h => { h with i3cAddr := some addr }))

end Sys2Proof.Machine
end

