-- ==== Sys2Proof/Machine/Spdm.lean ====
section
/-! DEFINITION. The SPDM responder (R595, R596), the DOE mailbox (R579), IDE_KM (R580), nonces and debug tokens (R604–R609),
the lifecycle and its tokens (R597–R601), and UCAL (R637). -/
namespace Sys2Proof.Machine

/-- A path's key: the DOE mailbox or MCTP on I3C. -/
def pathKey (p : SpdmPath) : Nat := b2n p.i3c
/-- A request reaches the responder (R579, R596): on I3C in every mode except OFF, over DOE as the object being processed. -/
def Chip.spdmReach (c : Chip) (p : SpdmPath) : Bool :=
  if p.i3c then decide (c.mode ≠ .off) else c.linkOk && c.pcie.doeBusy
/-- The mailbox's object is answered. -/
def Chip.doeDone (c : Chip) (p : SpdmPath) : Chip := if p.i3c then c else c.modPcie (fun q => { q with doeBusy := false })
/-- A response, and an ERROR. -/
def Chip.spdmSay (c : Chip) (p : SpdmPath) (l : List Byte) : Chip := (c.emit (.spdm p l)).doeDone p
def Chip.spdmErr (c : Chip) (p : SpdmPath) : Chip := (c.emit (.spdmError p)).doeDone p

/-- The secured session a request came in, of its own path. -/
def Chip.sessionOf (c : Chip) (p : SpdmPath) : Option SpdmSession :=
  match p.secured with
  | none => none
  | some i => c.hdf.sessions.find? (fun s => decide (s.id = i) && (s.i3c == p.i3c))
/-- A request within a session whose set-up is complete. -/
def Chip.securedOk (c : Chip) (p : SpdmPath) : Bool := match c.sessionOf p with | some s => s.done | none => false
/-- A request outside any session, or within a complete one. -/
def Chip.openOrSecured (c : Chip) (p : SpdmPath) : Bool := p.secured.isNone || c.securedOk p
/-- The connection on a path. -/
def SpdmConn.reset : SpdmConn := ⟨false, false, false⟩
def Chip.conn (c : Chip) (p : SpdmPath) : SpdmConn := sget c.hdf.conns (pathKey p) SpdmConn.reset
def Chip.setConn (c : Chip) (p : SpdmPath) (x : SpdmConn) : Chip :=
  c.modHdf (fun h => { h with conns := sset h.conns (pathKey p) x SpdmConn.reset })

/-- Answer a request: nothing where it does not reach the responder; the halt status in a halted BOOT (R585); in SCRAPPED
only what R609 leaves (PRESUMED, log 60). -/
def Chip.spdm (c : Chip) (p : SpdmPath) (scrapOk : Bool) (f : Chip → Chip) : Chip :=
  if !c.spdmReach p then c
  else match c.hdf.halted with
    | some n => if c.mode = .boot then c.spdmSay p [BitVec.ofNat 8 n] else c
    | none => if c.hdf.lifecycle = .scrapped && !(scrapOk && p.i3c) then c.spdmErr p else f c

/-- GET_VERSION: a new connection (PRESUMED, log 60). -/
def Chip.getVersion (c : Chip) (p : SpdmPath) : Chip := c.spdm p true (fun c =>
  if p.secured.isSome then c.spdmErr p else (c.setConn p ⟨true, false, false⟩).spdmSay p (Config.spdmBody 0))
/-- GET_CAPABILITIES. -/
def Chip.getCapabilities (c : Chip) (p : SpdmPath) : Chip := c.spdm p false (fun c =>
  if p.secured.isSome || !(c.conn p).version then c.spdmErr p
  else (c.setConn p { c.conn p with caps := true }).spdmSay p (Config.spdmBody 1))
/-- NEGOTIATE_ALGORITHMS. -/
def Chip.negotiate (c : Chip) (p : SpdmPath) : Chip := c.spdm p false (fun c =>
  if p.secured.isSome || !(c.conn p).caps then c.spdmErr p
  else (c.setConn p { c.conn p with algs := true }).spdmSay p (Config.spdmBody 2))
/-- What the Alias key is derived from beside the DeviceID secret (R593). -/
def Chip.aliasSeed (c : Chip) : List Byte := [1, 2, 3, 4, 5, 6, 7, 10, 12].flatMap (fun k => digestBytes (c.slot k))
/-- GET_DIGESTS: of slot 0's chain. -/
def Chip.getDigests (c : Chip) (p : SpdmPath) : Chip := c.spdm p false (fun c =>
  if !(c.conn p).algs || !c.openOrSecured p then c.spdmErr p
  else c.spdmSay p (digestBytes (Config.sha384 (Config.certChain c.aliasSeed 0))))
/-- GET_CERTIFICATE: a part of slot 0's chain; no owner certificate is installed in slot 1. -/
def Chip.getCertificate (c : Chip) (p : SpdmPath) (slot : BitVec 8) (off len : Nat) : Chip := c.spdm p true (fun c =>
  let chain := Config.certChain c.aliasSeed 0
  let ok := (c.conn p).algs || (decide (c.hdf.lifecycle = .scrapped) && (c.conn p).version)
  if !ok || !c.openOrSecured p || slot ≠ 0 || decide (chain.length ≤ off) then c.spdmErr p
  else c.spdmSay p ((chain.drop off).take len))
/-- CHALLENGE: signed by the Alias key. -/
def Chip.challenge (c : Chip) (p : SpdmPath) (slot : BitVec 8) (nonce : List Byte) : Chip := c.spdm p false (fun c =>
  if !(c.conn p).algs || p.secured.isSome || slot ≠ 0 || decide (nonce.length ≠ 32) then c.spdmErr p
  else
    let body := Config.spdmBody 4
    c.spdmSay p (body ++ Config.aliasSign c.aliasSeed (Config.sha384 (nonce ++ body))))
/-- GET_MEASUREMENTS: index i + 1 reports slot i, 0 their number, 0xFF all of them. -/
def Chip.measurements (c : Chip) (p : SpdmPath) (index : Nat) (sig : Bool) (nonce : List Byte) : Chip :=
  c.spdm p false (fun c =>
    if !(c.conn p).algs || !c.openOrSecured p || !(index ≤ 16 || index = 0xFF) || (sig && decide (nonce.length ≠ 32)) then
      c.spdmErr p
    else
      let body : List Byte := if index = 0 then [16]
        else if index = 0xFF then (List.range 16).flatMap (fun k => digestBytes (c.slot k))
        else digestBytes (c.slot (index - 1))
      c.spdmSay p (if sig then body ++ Config.aliasSign c.aliasSeed (Config.sha384 (nonce ++ body)) else body))
/-- The lowest session identifier not in use. -/
def Chip.freeSession (c : Chip) : Nat :=
  ((List.range 7).find? (fun i => !c.hdf.sessions.any (fun s => decide (s.id.toNat = i)))).getD 0
/-- KEY_EXCHANGE: at most 4 sessions over DOE and 2 over I3C. -/
def Chip.keyExchange (c : Chip) (p : SpdmPath) (slot : BitVec 8) : Chip := c.spdm p false (fun c =>
  let n := (c.hdf.sessions.filter (fun s => s.i3c == p.i3c)).length
  if !(c.conn p).algs || p.secured.isSome || slot ≠ 0 || decide (n ≥ (if p.i3c then 2 else 4)) then c.spdmErr p
  else
    let i : BitVec 16 := BitVec.ofNat 16 c.freeSession
    (c.modHdf (fun h => { h with sessions := h.sessions ++ [⟨i, p.i3c, false, 0⟩] })).spdmSay p
      (bytesOf 2 i.toNat ++ Config.spdmBody 5))
/-- Change the session a request came in. -/
def Chip.modSession (c : Chip) (p : SpdmPath) (f : SpdmSession → Option SpdmSession) : Chip :=
  c.modHdf (fun h => { h with sessions := h.sessions.filterMap (fun s =>
    if decide (some s.id = p.secured) && (s.i3c == p.i3c) then f s else some s) })
/-- FINISH: whether the requester's verification holds is outside the manual (PRESUMED, log 60). -/
def Chip.finishSession (c : Chip) (p : SpdmPath) : Chip := c.spdm p false (fun c =>
  match c.sessionOf p with
  | none => c.spdmErr p
  | some s =>
    if s.done then c.spdmErr p
    else if Config.freeBit c.fresh then (c.tick.modSession p (fun s => some { s with done := true })).spdmSay p (Config.spdmBody 6)
    else (c.tick.modSession p (fun _ => none)).spdmErr p)
/-- END_SESSION, HEARTBEAT, KEY_UPDATE: within a complete session. -/
def Chip.endSpdm (c : Chip) (p : SpdmPath) : Chip := c.spdm p false (fun c =>
  if c.securedOk p then (c.modSession p (fun _ => none)).spdmSay p (Config.spdmBody 7) else c.spdmErr p)
def Chip.heartbeat (c : Chip) (p : SpdmPath) : Chip := c.spdm p false (fun c =>
  if c.securedOk p then c.spdmSay p (Config.spdmBody 8) else c.spdmErr p)
def Chip.keyUpdate (c : Chip) (p : SpdmPath) (op : Nat) : Chip := c.spdm p false (fun c =>
  if !c.securedOk p || decide (op = 0) || decide (op > 3) then c.spdmErr p
  else (c.modSession p (fun s => some { s with keyGen := if op = 3 then s.keyGen else s.keyGen + 1 })).spdmSay p (Config.spdmBody 9))

/-- A data object written to the DOE mailbox (R579): Discovery is answered; CMA/SPDM and secured CMA/SPDM objects wait for
their answers; another protocol, an object above 64 KiB, or one written while Busy is discarded (PRESUMED, log 60). -/
def Chip.doeRequest (c : Chip) (proto : Nat) (obj : List Byte) : Chip :=
  if !c.linkOk || c.pcie.doeBusy || decide (obj.length > 65536) then c
  else if proto = 0 then c.emit (.doe (Config.spdmBody 10))
  else if proto ≤ 2 then c.modPcie (fun p => { p with doeBusy := true })
  else c

/-- IDE_KM (R580): a key set of one of at most 4 streams. -/
def Chip.ideKm (c : Chip) (p : SpdmPath) (n : BitVec 8) (keySet : Bool) (key : List Byte) : Chip := c.spdm p false (fun c =>
  let known := c.pcie.ide.any (fun i => decide (i.id = n))
  if p.i3c || !c.securedOk p || decide (key.length ≠ 32) || (!known && decide (c.pcie.ide.length ≥ 4)) then c.spdmErr p
  else
    let ide := if known then c.pcie.ide else c.pcie.ide ++ [⟨n, [], false⟩]
    (c.modPcie (fun q => { q with ide := ide.map (fun i =>
      if i.id = n then { i with keys := sput (b2n keySet) key i.keys, secure := true } else i) })).spdmSay p (Config.spdmBody 11))

/-- A nonce is issued (R605). -/
def Chip.nonceRequest (c : Chip) (p : SpdmPath) : Chip := c.spdm p false (fun c =>
  if !c.securedOk p then c.spdmErr p
  else
    let n := Config.random c.fresh
    (c.tick.modHdf (fun h => { h with nonces := h.nonces ++ [n] })).spdmSay p (bytesOf 32 n.toNat))
/-- NONCE_EXPIRY (R605). -/
def execNonceExpiry (idx : Nat) (s : State) : Res :=
  done s (s.chip.modHdf (fun h => { h with nonces := h.nonces.eraseIdx idx }))

/-- A token's bytes, a field of it (most significant byte first), and its nonce as issued (R604). -/
def tokAt (tok : List Byte) (i n : Nat) : List Byte := (tok.drop i).take n
def tokFld (tok : List Byte) (i n : Nat) : Nat := ofBytesBE (tokAt tok i n)
def tokKind (tok : List Byte) : Nat := tokFld tok 1 1
def tokNonce (tok : List Byte) : BitVec 256 := BitVec.ofNat 256 (ofBytes (tokAt tok 64 32))
/-- The reserved fields are 0 (R604). -/
def tokClean (tok : List Byte) : Bool :=
  let k := tokKind tok
  decide (tokFld tok 3 1 ≤ (if k = 0x12 then 1 else 0))
    && (if k = 1 ∨ k = 2 then decide (tokFld tok 4 2 < 4096) else decide (tokFld tok 4 2 = 0))
    && decide (tokFld tok 6 2 = 0) && (decide (k = 2) || decide (tokFld tok 8 8 = 0))
/-- A token verifies under its signer and matches the module (R604, R605). -/
def Chip.tokenOk (c : Chip) (tok : List Byte) (kind : Nat) (signer : Option (BitVec 384)) : Bool :=
  let key := tokAt tok 192 97
  decide (tok.length = 289) && decide (tokFld tok 0 1 = 1) && decide (tokKind tok = kind)
    && decide (tokFld tok 2 1 = c.hdf.lifecycle.code) && tokClean tok
    && decide (tokAt tok 16 48 = digestBytes Config.deviceId) && c.hdf.nonces.contains (tokNonce tok)
    && Config.ecdsaVerify (Config.sha384 (tok.take 96)) key (tokAt tok 96 96)
    && decide (signer = some (Config.sha384 key))
/-- The signers. -/
def vendorSigner : Option (BitVec 384) := some Config.vendorKeyHash
def Chip.debugSigner (c : Chip) : Option (BitVec 384) :=
  if c.hdf.lifecycle = .deployed then c.hdf.ownerKey else vendorSigner
/-- A refused token changes nothing else (R605). -/
def Chip.refuseToken (c : Chip) (p : SpdmPath) (tok : List Byte) : Chip :=
  (c.log 10 0 0x6004 (dat (tokKind tok)) 0).spdmErr p
/-- The nonce of an accepted token lapses. -/
def Chip.useNonce (c : Chip) (tok : List Byte) : Chip :=
  c.modHdf (fun h => { h with nonces := h.nonces.filter (fun n => decide (n ≠ tokNonce tok)) })

/-- The debug classes of a mode and a lifecycle state (R609) (DEDUCED, log 61). -/
def classOk (m : Mode) (l : Lifecycle) (cls : Nat) : Bool :=
  match m with
  | .off | .boot => false
  | .standby | .maintenance => decide (cls = 1) && decide (l ≠ .scrapped)
  | .provision => decide (cls = 1) && (decide (l = .manufacture) || decide (l = .provisioned))
  | .survival => decide (cls = 1) && decide (l ≠ .provisioned) && decide (l ≠ .scrapped)
  | .factoryTest => decide (cls = 3) && (decide (l = .manufacture) || decide (l = .rma))
  | _ => (decide (cls = 1) || decide (cls = 2)) && decide (l ≠ .provisioned) && decide (l ≠ .scrapped)

/-- The session limits (R607). -/
def Chip.roomFor (c : Chip) (cls : Nat) (vmid : BitVec 12) : Bool :=
  decide (c.hdf.dbgs.length < 16) && !c.hdf.dbgs.any (fun s => decide (s.cls = 3))
    && (decide (cls ≠ 3) || c.hdf.dbgs.isEmpty)
    && (decide (cls ≠ 2) || !c.hdf.dbgs.any (fun s => decide (s.cls = 2) && decide (s.vmid = vmid)))

/-- A session opens (R607, R608): slot 11 is extended first (DEDUCED, log 61). -/
def Chip.openSession (c : Chip) (p : SpdmPath) (tok : List Byte) (cls : Nat) : Chip :=
  let vmid : BitVec 12 := BitVec.ofNat 12 (tokFld tok 4 2)
  let mask : BitVec 64 := BitVec.ofNat 64 (tokFld tok 8 8)
  let c := (c.useNonce tok).extendSlot 11 (digestBytes (Config.sha384 tok))
  let i := ((List.range 16).find? (fun i => !c.hdf.dbgs.any (fun s => decide (s.id = i)))).getD 0
  let c := c.modHdf (fun h => { h with
    opened := min (h.opened + 1) 0xFFFF
    dbgs := h.dbgs ++ [⟨i, BitVec.ofNat 2 cls, vmid, mask, p.secured.getD 0, if cls = 2 then c.offClusters &&& mask else 0⟩] })
  (c.log 10 0 0x6002 (dat (cls + vmid.toNat * 2 ^ 16)) (dat i)).spdmSay p [BitVec.ofNat 8 i]

/-- DEBUG_TOKEN (R605). -/
def Chip.debugToken (c : Chip) (p : SpdmPath) (tok : List Byte) : Chip := c.spdm p false (fun c =>
  let cls := tokKind tok
  if !c.securedOk p then c.spdmErr p
  else if (cls = 1 ∨ cls = 2 ∨ cls = 3) ∧ c.tokenOk tok cls c.debugSigner = true ∧ classOk c.mode c.hdf.lifecycle cls = true
      ∧ c.roomFor cls (BitVec.ofNat 12 (tokFld tok 4 2)) = true then c.openSession p tok cls
  else c.refuseToken p tok)

/-- FACTORY_TEST_ENTRY (R25, R610): the D3 session opens last, bound to its token. -/
def Chip.factoryEntry (c : Chip) (p : SpdmPath) (tok : List Byte) : Chip := c.spdm p false (fun c =>
  if !c.securedOk p then c.spdmErr p
  else if c.mode = .standby && (c.hdf.lifecycle = .manufacture || c.hdf.lifecycle = .rma) && c.tokenOk tok 3 vendorSigner
      && !c.tapHolds && !c.acting then
    ((c.setMode .factoryTest 4).setDom 93 .on).openSession p tok 3
  else c.refuseToken p tok)
/-- FACTORY_TEST_ENTRY (R25). -/
def execFactoryTestEntry (p : SpdmPath) (tok : List Byte) (s : State) : Res := done s (s.chip.factoryEntry p tok)

/-- What a lifecycle commit does to NVM, keys and memory before it (R598); the Blend and H images are held as the next
BOOT_SEQUENCE's operands (DEDUCED, log 61). -/
def Chip.zeroiseOwner (c : Chip) : Chip :=
  let c : Chip := { c with
    nvm := { c.nvm with ucal := [] }
    mem := c.mem.filter (fun e => clearKeeps c.mem (fun _ => true) e.1)
    caches := { c.caches with slots := [], dirs := [], dirty := [] } }
  let c := c.forgetAll (fun p => match p with
    | .datumLine _ | .tail _ _ | .cached _ _ _ _ => true
    | _ => false)
  c.modHdf (fun h => { h with ownerKey := none, blendKey := none, himageKey := none })
def Chip.eraseSnapshots (c : Chip) : Chip := { c with canary := { c.canary with slots := [] } }
/-- A commit may be made: a fuse remains, or the transition is to SCRAPPED (R597), and none is pending. -/
def Chip.mayCommit (c : Chip) (new : Lifecycle) : Bool :=
  c.hdf.next.isNone && (decide (new = .scrapped) || decide (c.hdf.transLeft ≠ 0))
/-- The commit (R598, R600, R601, R610): in force from the next STANDBY, which PROVISION and FACTORY_TEST go to. -/
def Chip.commitLife (c : Chip) (p : SpdmPath) (new : Lifecycle) : Chip :=
  let old := c.hdf.lifecycle
  let was := c.mode
  let c := c.modHdf (fun h => { h with
    next := some new, record := decide (new = .deployed), nonces := [],
    transLeft := if new = .scrapped then h.transLeft else h.transLeft - 1 })
  let c : Chip := { c with nvm := { c.nvm with trained := false } }
  let c := c.log 10 0 0x6005 (dat (old.code + new.code * 16)) 0
  let c := (c.endSessions (fun s => decide (s.cls ≠ 2)) 0).spdmSay p (Config.spdmBody 12)
  if was = .provision || was = .factoryTest then (c.toStandby 4).actHeld else c

/-- A lifecycle token: accepted where it verifies and the transition may be made now (R598, R605). Where NVM cannot take the
lifecycle record, the old state stays in force with no effect begun (R601, R718). -/
def Chip.lifeToken (c : Chip) (p : SpdmPath) (tok : List Byte) (ok : Bool) (f : Chip → Chip) : Chip := c.spdm p false (fun c =>
  if !c.securedOk p then c.spdmErr p
  else if ok && !c.acting then
    let (c, written) := (c.useNonce tok).nvmWrite lifeBlocks
    if written then f c else c.spdmErr p
  else c.refuseToken p tok)

/-- PROVISIONED_TOKEN (R598). -/
def Chip.toProvisioned (c : Chip) (p : SpdmPath) (tok : List Byte) : Chip :=
  c.lifeToken p tok (c.mode = .provision && c.hdf.lifecycle = .manufacture && c.tokenOk tok 0x16 vendorSigner
    && c.mayCommit .provisioned) (fun c => c.commitLife p .provisioned)

/-- A key hash of a claim: zero bytes mean none (R599). -/
def claimKey (claim : List Byte) (i : Nat) : Option (BitVec 384) :=
  let b := tokAt claim (48 * i) 48
  if b.all (fun x => decide (x = 0)) then none else some (BitVec.ofNat 384 (ofBytes b))
/-- OWNER_CLAIM (R599). -/
def Chip.ownerClaim (c : Chip) (p : SpdmPath) (tok claim : List Byte) : Chip :=
  let owner := claimKey claim 0
  let voucher := Config.ecdsaVerify (Config.sha384 (digestBytes Config.deviceId ++ tokAt claim 0 48)) Config.vendorKey
    (tokAt claim 144 96)
  c.lifeToken p tok (c.mode = .provision && c.hdf.lifecycle = .provisioned && decide (claim.length = 240)
    && owner.isSome && c.tokenOk tok 0x20 owner && voucher && c.mayCommit .deployed) (fun c =>
    (c.modHdf (fun h => { h with ownerKey := owner, blendKey := claimKey claim 1, himageKey := claimKey claim 2 })).commitLife p .deployed)

/-- RELEASE_TOKEN (R598). -/
def Chip.releaseToken (c : Chip) (p : SpdmPath) (tok : List Byte) : Chip :=
  c.lifeToken p tok (c.mode = .maintenance && c.hdf.lifecycle = .deployed && c.tokenOk tok 0x11 c.hdf.ownerKey
    && c.mayCommit .provisioned) (fun c => c.zeroiseOwner.commitLife p .provisioned)

/-- RMA_TOKEN (R598): from the owner and the vendor, with one nonce (DEDUCED, log 61). -/
def Chip.rmaToken (c : Chip) (p : SpdmPath) (owner vendor : List Byte) : Chip :=
  c.lifeToken p owner (c.mode = .maintenance && c.hdf.lifecycle = .deployed && c.tokenOk owner 0x12 c.hdf.ownerKey
    && c.tokenOk vendor 0x12 vendorSigner && decide (tokNonce owner = tokNonce vendor) && c.mayCommit .rma) (fun c =>
    let c := c.zeroiseOwner
    let keep := decide (tokFld owner 3 1 = 1) && decide (tokFld vendor 3 1 = 1)
    (if keep then c else c.eraseSnapshots).commitLife p .rma)

/-- REFURBISH (R598). -/
def Chip.refurbish (c : Chip) (p : SpdmPath) (tok : List Byte) : Chip :=
  c.lifeToken p tok ((c.mode = .maintenance || c.mode = .factoryTest) && c.hdf.lifecycle = .rma
    && c.tokenOk tok 0x13 vendorSigner && c.mayCommit .provisioned) (fun c => c.eraseSnapshots.commitLife p .provisioned)

/-- SCRAP (R598) (DEDUCED, log 61). -/
def Chip.scrap (c : Chip) (p : SpdmPath) (tok : List Byte) : Chip :=
  let l := c.hdf.lifecycle
  let inMode := decide (c.mode = .maintenance)
    || (decide (c.mode = .provision) && (decide (l = .manufacture) || decide (l = .provisioned)))
  c.lifeToken p tok (inMode && decide (l ≠ .scrapped) && c.tokenOk tok 0x14 c.debugSigner && c.mayCommit .scrapped) (fun c =>
    let c := c.eraseSnapshots
    let c := c.modHdf (fun h => { h with ownerKey := none, blendKey := none, himageKey := none })
    Chip.commitLife { c with nvm := { c.nvm with ucal := [], age := 0, trained := false } } p .scrapped)

/-- TEST_RUN (R600): the deployment record of MANUFACTURE or RMA. -/
def Chip.testRun (c : Chip) (p : SpdmPath) (tok : List Byte) : Chip :=
  let l := c.hdf.lifecycle
  let inMode := (decide (l = .manufacture) && (decide (c.mode = .provision) || decide (c.mode = .maintenance)))
    || (decide (l = .rma) && decide (c.mode = .maintenance))
  c.lifeToken p tok (inMode && c.hdf.next.isNone && c.tokenOk tok 0x15 vendorSigner) (fun c =>
    (c.modHdf (fun h => { h with record := true })).spdmSay p (Config.spdmBody 12))

/-- UCAL_WRITE (R637): an offset within its item's range. -/
def Chip.ucalWrite (c : Chip) (p : SpdmPath) (item : Nat) (off : Int) : Chip := c.spdm p false (fun c =>
  if !c.securedOk p || !(c.mode = .provision || c.mode = .maintenance) || decide (item > 2741)
      || decide (off.natAbs > (ucalRange item).natAbs) then c.spdmErr p
  else
    let (c, ok) := c.nvmWrite ucalBlocks
    if ok then Chip.spdmSay { c with nvm := { c.nvm with ucal := sset c.nvm.ucal item off 0 } } p (Config.spdmBody 13)
    else c.spdmErr p)

/-- DOE_REQUEST (R579). -/
def execDoeRequest (proto : BitVec 8) (obj : List Byte) (s : State) : Res := done s (s.chip.doeRequest proto.toNat obj)
/-- GET_VERSION (R595). -/
def execGetVersion (p : SpdmPath) (s : State) : Res := done s (s.chip.getVersion p)
/-- GET_CAPABILITIES (R595). -/
def execGetCapabilities (p : SpdmPath) (s : State) : Res := done s (s.chip.getCapabilities p)
/-- NEGOTIATE_ALGORITHMS (R595). -/
def execNegotiateAlgorithms (p : SpdmPath) (s : State) : Res := done s (s.chip.negotiate p)
/-- GET_DIGESTS (R595). -/
def execGetDigests (p : SpdmPath) (s : State) : Res := done s (s.chip.getDigests p)
/-- GET_CERTIFICATE (R595). -/
def execGetCertificate (p : SpdmPath) (slot : BitVec 8) (off len : BitVec 16) (s : State) : Res :=
  done s (s.chip.getCertificate p slot off.toNat len.toNat)
/-- CHALLENGE (R595). -/
def execChallenge (p : SpdmPath) (slot : BitVec 8) (nonce : List Byte) (s : State) : Res :=
  done s (s.chip.challenge p slot nonce)
/-- GET_MEASUREMENTS (R595). -/
def execGetMeasurements (p : SpdmPath) (index : BitVec 8) (sig : Bool) (nonce : List Byte) (s : State) : Res :=
  done s (s.chip.measurements p index.toNat sig nonce)
/-- KEY_EXCHANGE (R595). -/
def execKeyExchange (p : SpdmPath) (slot : BitVec 8) (_exchange : List Byte) (s : State) : Res :=
  done s (s.chip.keyExchange p slot)
/-- FINISH (R595). -/
def execFinish (p : SpdmPath) (_verify : List Byte) (s : State) : Res := done s (s.chip.finishSession p)
/-- END_SESSION (R595). -/
def execEndSession (p : SpdmPath) (s : State) : Res := done s (s.chip.endSpdm p)
/-- HEARTBEAT (R595). -/
def execHeartbeat (p : SpdmPath) (s : State) : Res := done s (s.chip.heartbeat p)
/-- KEY_UPDATE (R595). -/
def execKeyUpdate (p : SpdmPath) (op : BitVec 8) (s : State) : Res := done s (s.chip.keyUpdate p op.toNat)
/-- IDE_KM (R580). -/
def execIdeKm (p : SpdmPath) (stream : BitVec 8) (keySet : Bool) (key : List Byte) (s : State) : Res :=
  done s (s.chip.ideKm p stream keySet key)
/-- NONCE_REQUEST (R605). -/
def execNonceRequest (p : SpdmPath) (s : State) : Res := done s (s.chip.nonceRequest p)
/-- DEBUG_TOKEN (R605). -/
def execDebugToken (p : SpdmPath) (tok : List Byte) (s : State) : Res := done s (s.chip.debugToken p tok)
/-- PROVISIONED_TOKEN (R598). -/
def execProvisionedToken (p : SpdmPath) (tok : List Byte) (s : State) : Res := done s (s.chip.toProvisioned p tok)
/-- OWNER_CLAIM (R599). -/
def execOwnerClaim (p : SpdmPath) (tok claim : List Byte) (s : State) : Res := done s (s.chip.ownerClaim p tok claim)
/-- RELEASE_TOKEN (R598). -/
def execReleaseToken (p : SpdmPath) (tok : List Byte) (s : State) : Res := done s (s.chip.releaseToken p tok)
/-- RMA_TOKEN (R598). -/
def execRmaToken (p : SpdmPath) (owner vendor : List Byte) (s : State) : Res := done s (s.chip.rmaToken p owner vendor)
/-- REFURBISH (R598). -/
def execRefurbish (p : SpdmPath) (tok : List Byte) (s : State) : Res := done s (s.chip.refurbish p tok)
/-- SCRAP (R598). -/
def execScrap (p : SpdmPath) (tok : List Byte) (s : State) : Res := done s (s.chip.scrap p tok)
/-- TEST_RUN (R600). -/
def execTestRun (p : SpdmPath) (tok : List Byte) (s : State) : Res := done s (s.chip.testRun p tok)
/-- UCAL_WRITE (R637). -/
def execUcalWrite (p : SpdmPath) (item : BitVec 12) (off : BitVec 16) (s : State) : Res :=
  done s (s.chip.ucalWrite p item.toNat off.toInt)

end Sys2Proof.Machine
end

