-- ==== Sys2Proof/Machine/PageAccess.lean ====
section
/-! DEFINITION. Reading and writing a page register (R13, R673–R677): who may, what a read returns, which writes a block
refuses, and what a write starts. -/
namespace Sys2Proof.Machine

/-- The PWR, TIM, HDF and DBG pages by offset, beside those named where they are used. -/
def hdfPage : Nat := Blk.hdf.base 0
def dbgPage : Nat := Blk.dbg.base 0
def lmpPage : Nat := Blk.lmp.base 0

/-- A requester may make an access of a register (R674, R682, with R569, R587 and R684 for their own)
(DESIGN CHOICE, log 68). -/
def Chip.mayAccess (c : Chip) (who : Requester) (b : Blk) (off : Nat) (wr : Bool) : Bool :=
  match who with
  | .thread h =>
    let least := if !wr then b.privs.1.toNat else if b = .clu && decide (off = 0x148) then 1 else b.privs.2.toNat
    decide (least ≤ (c.hart h).priv)
  | .host =>
    if !wr then decide (1 ≤ b.host)
    else if b = .sec then
      decide (off = 0x110) && c.mode = .boot && decide (c.hdf.step = 8) && decide (c.rf (hdfPage + 0x100) 9 8 = 1)
    else decide (b.host = 2) && !(b = .pci && decide (off = 0x100))
  | _ => true

/-- A page serves its block-specific registers (R675, R682). -/
def Chip.served (c : Chip) (b : Blk) (i : Nat) : Bool :=
  match b.dom i with
  | some d => decide (c.dom d = .on)
  | none => true

/-- An access reaches a register, or is answered with zero and recorded (R563, R674–R676) (DEDUCED, log 16). -/
def Chip.reach (c : Chip) (who : Requester) (o : Nat) (wr : Bool) : Except Chip (Blk × Nat × List Fld) :=
  let off := o % 0x1000
  match pageAt o with
  | none => .error (c.err hdfPage who 3 off)
  | some (b, i) =>
    let page := o - off
    if who = .host && decide (b.host = 0) then .error (c.err pci .host 7 off)
    else if !c.mayAccess who b off wr then .error (c.err page who 5 off)
    else if decide (off ≥ 0x100) && !c.served b i then .error (c.err page who 6 off)
    else match regFields b i off with
      | none => .error (c.err page who 3 off)
      | some fs => .ok (b, i, fs)

/-- SEC_DBG_STATUS (R608). -/
def Chip.dbgStatus (c : Chip) : Datum :=
  let n := fun (p : DbgSession → Bool) => (c.hdf.dbgs.filter p).length
  dat (b2n (c.hdf.dbgs.any (fun s => decide (s.cls = 3))) * 2 ^ 63 + n (fun s => decide (s.cls = 2)) * 2 ^ 48
    + n (fun s => decide (s.cls = 2) && decide (s.susp ≠ 0)) * 2 ^ 40 + n (fun s => decide (s.cls = 1)) * 2 ^ 32
    + min c.hdf.opened 0xFFFF)
/-- CAL_QUERY (R638). -/
def Chip.calRead (c : Chip) (d : Datum) : Datum :=
  let i := fld d 51 40
  if i ≤ 2741 then
    let e := c.calEff i
    dat (i * 2 ^ 40 + 2 ^ 39 + b2n e.2 * 2 ^ 38 + (BitVec.ofInt 32 e.1).toNat)
  else dat (i * 2 ^ 40)
/-- NVM_WEAR (R642). -/
def Chip.wearRead (c : Chip) : Datum :=
  let worst := c.nvm.writes.foldl (fun a e => max a e.2) 0
  dat (min (worst * 100 / 10 ^ 9) 255 * 2 ^ 48 + c.nvm.spares.length * 2 ^ 16 + min c.nvm.retired.length 0xFFFF)
/-- PWR_DOM_STATE_k (R617). -/
def Chip.domWord (c : Chip) (k : Nat) : Datum :=
  dat ((List.range 32).foldl (fun a j => a + (c.dom (32 * k + j)).code * 4 ^ j) 0)
/-- PWR_CAP (R626). -/
def Chip.capWord (c : Chip) : Datum :=
  dat (min c.power.inputW 0xFFFF * 2 ^ 32 + c.limitW * 2 ^ 16 + c.rf (pwr + 0x108) 15 0)
/-- The sensor of a THM page's register (R686). -/
def sensorOf (i off : Nat) : Nat := 8 * i + (off - 0x100) / 8
/-- THM_TEMP_j (R686). -/
def Chip.tempWord (c : Chip) (k : Nat) : Datum :=
  dat (zoneOf k (c.temp k) * 2 ^ 16 + (c.temp k).toNat)

/-- What a register returns: the values a block computes, else the register as held (R13). -/
def Chip.regValue (c : Chip) (b : Blk) (i off o : Nat) : Datum :=
  if off = 0x020 then
    dat (match b.dom i with
      | some d => if d < 96 then (c.dom d).code else 2
      | none => 2)
  else match b with
  | .hdf => if off = 0x100 then setFld (setFld (c.reg o) 16 16 (b2n c.lidB)) 13 12 (b2n c.cap128) else c.reg o
  | .sec =>
    if off = 0x100 then dat (b2n c.hdf.record * 2 ^ 32 + c.hdf.transLeft * 2 ^ 16 + c.hdf.lifecycle.code)
    else if off = 0x108 then c.dbgStatus
    else if 0x200 ≤ off then (c.slot ((off - 0x200) / 48)).extractLsb' (8 * ((off - 0x200) % 48)) 64
    else c.reg o
  | .pwr =>
    if off = 0x100 then setFld (setFld (c.reg o) 11 8 c.prev.code) 3 0 c.mode.code
    else if off = 0x108 then c.capWord
    else if decide (0x118 ≤ off) && decide (off < 0x130) then c.domWord ((off - 0x118) / 8)
    else if 0x130 ≤ off then c.freqWord ((off - 0x130) / 8)
    else c.reg o
  | .cal => if off = 0x100 then c.calRead (c.reg o) else c.reg o
  | .nvm => if off = 0x100 then c.wearRead else c.reg o
  | .tim =>
    if off = 0x118 then c.time.counter.extractLsb' 0 64
    else if off = 0x120 then c.time.nowHi.zeroExtend 64
    else c.reg o
  | .thm => if 0x100 ≤ off then c.tempWord (sensorOf i off) else c.reg o
  | .can =>
    if off = 0x100 then c.canStatus else if 0x140 ≤ off then c.canSlot ((off - 0x140) / 8) else c.reg o
  | _ => c.reg o

/-- Read a register (R673): TIM_NOW_LO latches TIM_NOW_HI (R549). -/
def Chip.pageRead (c : Chip) (who : Requester) (o : Nat) : Chip × Datum :=
  match c.reach who o false with
  | .error c => (c, 0)
  | .ok (b, i, _) =>
    let v := c.regValue b i (o % 0x1000) o
    if b = .tim && decide (o % 0x1000 = 0x118) then
      ({ c with time := { c.time with nowHi := c.time.counter.extractLsb' 64 32 } }, v)
    else (c, v)

/-- A register after a write of its fields (R13). -/
def applyFields (locked : Bool) (fs : List Fld) (old v : Datum) : Datum :=
  fs.foldl (fun d f =>
    let x := fld v f.hi f.lo
    match f.acc with
    | .rw => setFld d f.hi f.lo x
    | .rwl => if locked then d else setFld d f.hi f.lo x
    | .rw1c => setFld d f.hi f.lo (fld d f.hi f.lo - (fld d f.hi f.lo &&& x))
    | .rw1s => setFld d f.hi f.lo (fld d f.hi f.lo ||| x)
    | _ => d) old
/-- Non-zero bits are written to RSV (R677). -/
def writesRsv (fs : List Fld) (v : Datum) : Bool := fs.any (fun f => f.acc = .rsv && decide (fld v f.hi f.lo ≠ 0))
/-- The register has RWL fields. -/
def hasRwl (fs : List Fld) : Bool := fs.any (fun f => f.acc = .rwl)

/-- The context an SLU_8 offset belongs to, and the offset in its block (R482). -/
def ctxOfOff (off : Nat) : Nat := (off - 0x100) / 0x80
def ctxSub (off : Nat) : Nat := (off - 0x100) % 0x80

/-- Setting EN of a context is refused, or clearing it (R483): STATUS.ERR, or 0. -/
def Chip.ctxCfgErr (c : Chip) (k : Nat) (v : Datum) : Nat :=
  if c.ctxEn k then
    (if !bit v 63 && (decide (c.ctxPhase k ≠ 0) || bit (c.reg (stAt k)) 41) then 1 else 0)
  else if bit v 63 && c.enRefused k (fld v 11 0) then 3 else 0

/-- A write that a block chapter refuses whole (R677) (DEDUCED, log 26). -/
def Chip.refuses (c : Chip) (b : Blk) (i off o : Nat) (v : Datum) : Bool :=
  match b with
  | .typ => decide (0x200 ≤ off) &&
      (bit v 7 == bit v 6 || (bit v 3 && !bit v 7) || !(decide (0x380 ≤ fld v 41 32) && decide (fld v 41 32 ≤ 0x3FF)))
  | .mem => (decide (off = 0x118) && !(decide (60 ≤ fld v 15 0) && decide (fld v 15 0 ≤ 10080)))
      || (decide (off = 0x110) && bit v 63 && bit (c.reg o) 0)
  | .slu =>
    if i ≠ 8 || off < 0x100 || 0x900 ≤ off then false
    else
      let k := ctxOfOff off
      if ctxSub off = 0 then decide (c.ctxCfgErr k v ≠ 0)
      else c.ctxEn k && decide (8 ≤ ctxSub off) && decide (ctxSub off ≤ 0x20)
  | .cge =>
    if off < 0x100 || 0x180 ≤ off then false
    else bit (c.reg (grpAt ((off - 0x100) / 8))) 3 || (decide (i = 64) && decide (fld v 2 0 ≥ 5))
  | .pwr =>
    if off = 0x108 then !(decide (fld v 15 0 = 0) || (decide (400 ≤ fld v 15 0) && decide (fld v 15 0 ≤ 1200)))
    else decide (0x130 ≤ off) && !(decide (8 ≤ fld v 4 0) && decide (fld v 4 0 ≤ 24))
  | .clk => decide (off = 0x100) && (decide (fld v 11 8 > 12) || decide (fld v 3 0 > 10))
  | .can =>
    if off = 0x108 then !bit v 63 && (bit (c.reg o) 62 || decide (fld v 31 0 = 0) || decide (fld v 31 0 > 60000))
    else decide (off = 0x118) && decide (fld v 63 48 < 0xF000)
  | .dbg => decide (off = 0x100) && bit (c.reg (dbgPage + 0x108)) 63
  | .cor => decide (0x100 ≤ off) && decide (fld v 55 48 > 0x0A)
  | _ => false

/-- What a refused write leaves beside its error: the ERR fields of R417, R418 and R483 (DEDUCED, log 26). -/
def Chip.refusedNote (c : Chip) (b : Blk) (off o : Nat) (v : Datum) : Chip :=
  match b with
  | .mem => if off = 0x110 then c.setRf o 7 4 4 else c
  | .slu => if decide (0x100 ≤ off) && decide (ctxSub off = 0) then
      c.setStatus (ctxOfOff off) 37 34 (c.ctxCfgErr (ctxOfOff off) v) else c
  | _ => c

/-- The value a write applies where some field must keep its own, and whether that is an error (R168, R483, R521, R658,
R677). -/
def Chip.adjusted (c : Chip) (b : Blk) (i off o : Nat) (v : Datum) : Datum × Bool :=
  let old := c.reg o
  let keep := fun (v : Datum) (hi lo : Nat) => setFld v hi lo (fld old hi lo)
  match b with
  | .clu => (if decide (0x100 ≤ off) && decide (off < 0x140) && bit old 1 then keep v 0 0 else v, false)
  | .slu =>
    if decide (i = 8) && decide (0x100 ≤ off) && decide (off < 0x900) && decide (ctxSub off = 0) && bit old 63 then
      (keep v 11 0, decide (fld v 11 0 ≠ fld old 11 0))
    else (v, false)
  | .dft => (if decide (i = 4) && decide (off = 0x100) && bit old 63 then keep (keep v 61 44) 43 28 else v, false)
  | .can => (if decide (off = 0x108) && bit v 63 then keep v 31 0 else v, false)
  | _ => (v, false)

/-- IRQ_FORCE (R678): the defined bits of IRQ_STATUS. -/
def Chip.forceIrq (c : Chip) (b : Blk) (i page : Nat) (v : Datum) : Chip :=
  c.setReg (page + 0x28) (c.reg (page + 0x28) ||| (v &&& dat (2 ^ 63 + irqBits b i)))

/-- What a write of a cluster's register starts (R165, R168, R684). -/
def Chip.afterClu (c : Chip) (i off : Nat) (old new v : Datum) : Chip :=
  if off = 0x148 then
    ((List.range 32).filter (fun j => bit v j)).foldl (fun (c : Chip) j =>
      c.modHart (BitVec.ofNat 11 (32 * i + j)) (fun x => x.setSpr 0x104 (x.sprD 0x104 ||| 2))) c
  else if decide (0x100 ≤ off) && decide (off < 0x140) && bit old 0 != bit new 0 then
    (List.range 4).foldl (fun (c : Chip) t =>
      c.modHart (BitVec.ofNat 11 (32 * i + (off - 0x100) / 2 + t)) (fun x => { x with resv := none })) c
  else c
/-- What a write of SLU_8 starts (R459, R461, R462). -/
def Chip.afterSlu (c : Chip) (off : Nat) (old new v : Datum) : Chip :=
  let k := ctxOfOff off
  if off < 0x100 || 0x900 ≤ off then c
  else if ctxSub off = 0 then (if bit new 63 && !bit old 63 then c.ctxEnable k else c.holdEnds k)
  else if ctxSub off = 0x30 then c.sluCommand k v
  else if decide (ctxSub off = 0x48) && bit v 63 then c.rgnCommand k
  else c
/-- What a write of DFT_4 starts (R521, R525, R543). -/
def Chip.afterDft (c : Chip) (off o : Nat) (old new v : Datum) : Chip :=
  if off = 0x100 then (if bit old 63 && !bit new 63 then c.driftStop else c)
  else if off = 0x110 then (if bit v 63 then c.peerCommand else c)
  else if decide (0x300 ≤ off) && decide (off % 16 = 0) && decide (fld old 63 48 ≠ fld new 63 48) then
    c.voidSlots new (c.reg (o + 8))
  else c
/-- What a write of the PWR page starts (R22, R614, R618). -/
def Chip.afterPwr (c : Chip) (off : Nat) (v : Datum) : Chip :=
  if off = 0x100 then (c.modeRequest (fld v 63 56)).actHeld
  else if off = 0x108 then c.pickRun
  else if decide (off = 0x110) && bit v 63 then c.domGo (fld v 6 0) (fld v 57 56)
  else c
/-- What a write of the TIM page starts (R551). -/
def Chip.afterTim (c : Chip) (off : Nat) (v : Datum) : Chip :=
  if off = 0x108 then c.setRf (tim + 0x100) 8 8 0
  else if off = 0x110 then { c with time := { c.time with set := some (v.extractLsb' 0 48) } }
  else c

/-- What a write of a register starts (DEDUCED, log 26). -/
def Chip.after (c : Chip) (who : Requester) (b : Blk) (i off o : Nat) (old v : Datum) : Chip :=
  let new := c.reg o
  if off = 0x038 then c.forceIrq b i (o - off) v
  else if off < 0x100 then c
  else match b with
  | .clu => c.afterClu i off old new v
  | .bld => if decide (off = 0x108) && bit v 63 then c.blendLoad i else c
  | .mem => if decide (off = 0x110) && bit v 63 then c.fcGo i else c
  | .slu => c.afterSlu off old new v
  | .dft => if i = 4 then c.afterDft off o old new v else c
  | .tim => c.afterTim off v
  | .pci => if decide (0x400 ≤ off) && decide (off % 16 = 0) && bit v 63 then c.setRf o 62 62 0 else c
  | .sec => if off = 0x110 then (if bit v 63 then c.bootGo else c)
            else if decide (off = 0x118) && bit v 63 then c.extendGo else c
  | .pwr => c.afterPwr off v
  | .can => if decide (off = 0x110) && bit v 63 then c.snapGo
            else if off = 0x118 then c.log 13 (hartNo who) (fld v 63 48) (dat (fld v 47 0)) 0 else c
  | _ => c

/-- A write that reaches a register (R13, R677). -/
def Chip.applyWrite (c : Chip) (who : Requester) (b : Blk) (i o : Nat) (fs : List Fld) (v : Datum) : Chip :=
  let off := o % 0x1000
  let page := o - off
  let locked := bit (c.reg (page + 0x50)) 0
  if c.refuses b i off o v && !(locked && hasRwl fs) then (c.refusedNote b off o v).err page who 1 off
  else if decide (o = pwr + 0x100) && c.modeWaits (fld v 63 56) then c
  else
    let old := c.reg o
    let a := c.adjusted b i off o v
    let c := (c.setReg o (applyFields locked fs old a.1)).after who b i off o old v
    let c := if locked && hasRwl fs then c.err page who 2 off else c
    let c := if a.2 then c.err page who 1 off else c
    if writesRsv fs v then c.err page who 4 off else c

/-- Write a register (R673). -/
def Chip.pageWrite (c : Chip) (who : Requester) (o : Nat) (v : Datum) : Chip :=
  match c.reach who o true with
  | .error c => c
  | .ok (b, i, fs) => c.applyWrite who b i o fs v

end Sys2Proof.Machine
end

