-- ==== Sys2Proof/Machine/PageRows.lean ====
section
/-! DEFINITION. The commands that are register writes, those of the host through BAR0 (R563), the role change (R543) and
the Lamp's samples (R687). -/
namespace Sys2Proof.Machine

/-- A requester can make an access now: the module is not in OFF, the host's link carries it, a thread has been released
(DESIGN CHOICE, log 68). -/
def Chip.present (c : Chip) (who : Requester) : Bool :=
  c.mode ≠ .off && (match who with
    | .thread h => decide ((c.hart h).run ≠ .off)
    | .host => c.linkOk
    | .headframe => true
    | .hardware => false)

/-- A command that writes a value of its own kind to a register; of another kind it is none of this row's
(DESIGN CHOICE, log 27). -/
def wrote (s : State) (who : Requester) (o : Nat) (v : Datum) (kind : Bool) : Res :=
  done s (if kind && s.chip.present who then s.chip.pageWrite who o v else s.chip)

/-- REGISTER_WRITE (R677). -/
def execRegisterWrite (who : Requester) (off : BitVec 28) (v : Datum) (s : State) : Res :=
  wrote s who off.toNat v (decide (off.toNat % 8 = 0))
/-- IRQ_FORCE (R678). -/
def execIrqForce (who : Requester) (off : BitVec 28) (v : Datum) (s : State) : Res :=
  wrote s who off.toNat v (decide (off.toNat % 0x1000 = 0x038))
/-- CLU_IPI (R684). -/
def execCluIpi (who : Requester) (k : BitVec 6) (v : Datum) (s : State) : Res :=
  wrote s who (Blk.clu.base k.toNat + 0x148) v true

/-- A GO value whose operation field is the row's (DESIGN CHOICE, log 27). -/
def goOp (v : Datum) (hi lo op : Nat) : Bool := bit v 63 && decide (fld v hi lo = op)

/-- CLEAR (R418). -/
def execClear (who : Requester) (m : Fin 9) (v : Datum) (s : State) : Res := wrote s who (fcCtlAt m.val) v (goOp v 49 48 0)
/-- RETAG (R418). -/
def execRetag (who : Requester) (m : Fin 9) (v : Datum) (s : State) : Res := wrote s who (fcCtlAt m.val) v (goOp v 49 48 1)

/-- CONTEXT_ENABLE (R459). -/
def execContextEnable (who : Requester) (c : BitVec 4) (v : Datum) (s : State) : Res :=
  wrote s who (ctxReg c.toNat 0) v (bit v 63 && !s.chip.ctxEn c.toNat)
/-- START (R462). -/
def execStart (who : Requester) (c : BitVec 4) (v : Datum) (s : State) : Res :=
  wrote s who (ctxReg c.toNat 0x30) v (goOp v 1 0 0)
/-- RELOCATE (R462). -/
def execRelocate (who : Requester) (c : BitVec 4) (v : Datum) (s : State) : Res :=
  wrote s who (ctxReg c.toNat 0x30) v (goOp v 1 0 1)
/-- A write of RGN_CMD_c with an operation (R461). -/
def rgnRow (op : Nat) (who : Requester) (c : BitVec 4) (v : Datum) (s : State) : Res :=
  wrote s who (ctxReg c.toNat 0x48) v (goOp v 62 60 op)
/-- ALLOC (R461). -/
def execAlloc (who : Requester) (c : BitVec 4) (v : Datum) (s : State) : Res := rgnRow 0 who c v s
/-- RETIRE (R461). -/
def execRetire (who : Requester) (c : BitVec 4) (v : Datum) (s : State) : Res := rgnRow 1 who c v s
/-- PIN (R461). -/
def execPin (who : Requester) (c : BitVec 4) (v : Datum) (s : State) : Res := rgnRow 2 who c v s
/-- UNPIN (R461). -/
def execUnpin (who : Requester) (c : BitVec 4) (v : Datum) (s : State) : Res := rgnRow 3 who c v s
/-- RELEASE (R461). -/
def execRelease (who : Requester) (c : BitVec 4) (v : Datum) (s : State) : Res := rgnRow 4 who c v s
/-- SETGEN (R461). -/
def execSetgen (who : Requester) (c : BitVec 4) (v : Datum) (s : State) : Res := rgnRow 5 who c v s

/-- A write of PEER_CMD with an operation (R525). -/
def peerRow (op : Nat) (who : Requester) (v : Datum) (s : State) : Res := wrote s who (dft4 + 0x110) v (goOp v 62 60 op)
/-- PEER_ENABLE (R525). -/
def execPeerEnable (who : Requester) (v : Datum) (s : State) : Res := peerRow 0 who v s
/-- PEER_DISABLE (R525). -/
def execPeerDisable (who : Requester) (v : Datum) (s : State) : Res := peerRow 1 who v s
/-- PEER_RESET (R525). -/
def execPeerReset (who : Requester) (v : Datum) (s : State) : Res := peerRow 2 who v s
/-- SETPLANES (R525). -/
def execSetplanes (who : Requester) (v : Datum) (s : State) : Res := peerRow 3 who v s
/-- DRIFT_DISABLE (R521). -/
def execDriftDisable (who : Requester) (v : Datum) (s : State) : Res :=
  wrote s who (dft4 + 0x100) v (!bit v 63 && s.chip.driftEn)

/-- A thread's ring gets another GEN (R541, R543). -/
def Chip.msgRole (c : Chip) (h : Hart) (v : Datum) : Chip :=
  let v := setFld v 43 40 0
  (c.modHart h (fun x => x.setSpr 0x130 v)).voidSlots v ((c.hart h).sprD 0x131)
/-- The GEN of an endpoint changes: of queue q, or of the writing thread's own ring (R543). -/
def Chip.roleChange (c : Chip) (who : Requester) (q : Option (Fin 48)) (v : Datum) : Chip :=
  match q, who with
  | some q, _ =>
    if decide (fld v 63 48 ≠ c.rf (qRingAt q.val) 63 48) && c.present who then c.pageWrite who (qRingAt q.val) v else c
  | none, .thread h =>
    if decide ((c.hart h).priv = 3) && decide (fld v 63 48 ≠ fld ((c.hart h).sprD 0x130) 63 48) && c.present who then
      c.msgRole h v
    else c
  | none, _ => c
/-- ROLE_CHANGE (R543). -/
def execRoleChange (who : Requester) (q : Option (Fin 48)) (v : Datum) (s : State) : Res :=
  done s (s.chip.roleChange who q v)

/-- DMA_DOORBELL (R573). -/
def execDmaDoorbell (who : Requester) (q : BitVec 6) (v : Datum) (s : State) : Res := wrote s who (dmaPtrAt q.toNat) v true
/-- DMA_QUEUE_ENABLE (R572). -/
def execDmaQueueEnable (who : Requester) (q : BitVec 6) (v : Datum) (s : State) : Res :=
  wrote s who (dmaCtlAt q.toNat) v (bit v 63)

/-- A write of CAN_SNAP_CMD with an operation (R659). -/
def snapRow (op : Nat) (who : Requester) (v : Datum) (s : State) : Res := wrote s who (can + 0x110) v (goOp v 62 60 op)
/-- COPY (R659). -/
def execCopy (who : Requester) (v : Datum) (s : State) : Res := snapRow 0 who v s
/-- COPY_LIVE (R659). -/
def execCopyLive (who : Requester) (v : Datum) (s : State) : Res := snapRow 1 who v s
/-- PROTECT (R659). -/
def execProtect (who : Requester) (v : Datum) (s : State) : Res := snapRow 2 who v s
/-- UNPROTECT (R659). -/
def execUnprotect (who : Requester) (v : Datum) (s : State) : Res := snapRow 3 who v s
/-- ERASE (R659). -/
def execErase (who : Requester) (v : Datum) (s : State) : Res := snapRow 4 who v s
/-- FREEZE (R659). -/
def execFreeze (who : Requester) (v : Datum) (s : State) : Res := snapRow 5 who v s
/-- KICK (R658): the period it restarts is not counted here. -/
def execKick (who : Requester) (v : Datum) (s : State) : Res := wrote s who (can + 0x108) v (bit v 63)
/-- CAN_SWLOG (R647). -/
def execCanSwlog (who : Requester) (v : Datum) (s : State) : Res := wrote s who (can + 0x118) v true

/-- BLEND_LOAD (R262). -/
def execBlendLoad (who : Requester) (k : BitVec 6) (v : Datum) (s : State) : Res :=
  wrote s who (bldAt k.toNat 0x108) v (bit v 63)
/-- BOOT_GO (R588). -/
def execBootGo (who : Requester) (v : Datum) (s : State) : Res := wrote s who bootCtlAt v (bit v 63)
/-- SEC_EXTEND (R592). -/
def execSecExtend (who : Requester) (v : Datum) (s : State) : Res := wrote s who extendAt v (bit v 63)

/-- A request in PWR_MODE.REQ (R621) (DEDUCED, log 26). -/
def modeRow (req : Nat) (who : Requester) (s : State) : Res := wrote s who (pwr + 0x100) (dat (req * 2 ^ 56)) true
/-- QUIESCE (R619). -/
def execQuiesce (who : Requester) (s : State) : Res := modeRow 1 who s
/-- RESUME (R619). -/
def execResume (who : Requester) (s : State) : Res := modeRow 2 who s
/-- MAINTENANCE (R25). -/
def execMaintenance (who : Requester) (s : State) : Res := modeRow 3 who s
/-- POWER_ON (R25). -/
def execPowerOn (who : Requester) (s : State) : Res := modeRow 4 who s

/-- A write of PWR_DOM_REQ with a target (R614). -/
def domRow (t : Nat) (who : Requester) (v : Datum) (s : State) : Res := wrote s who domReqAt v (goOp v 57 56 t)
/-- DOMAIN_OFF_REQUEST (R614). -/
def execDomainOffRequest (who : Requester) (v : Datum) (s : State) : Res := domRow 0 who v s
/-- DOMAIN_RETAIN_REQUEST (R614). -/
def execDomainRetainRequest (who : Requester) (v : Datum) (s : State) : Res := domRow 1 who v s
/-- DOMAIN_ON_REQUEST (R614). -/
def execDomainOnRequest (who : Requester) (v : Datum) (s : State) : Res := domRow 2 who v s

/-- A host access through BAR0 (R563): the alignment and size rules, then the register. -/
def Chip.hostRegister (c : Chip) (q : HostReq) (size : Nat) (wr : Option Datum) : Chip :=
  let o := q.off.toNat
  if !c.takes q || decide (o ≥ 2 ^ 28) then c
  else match wr with
    | some v => if size = 8 && o % 8 = 0 then c.pageWrite .host o v else c.err pci .host 7 o
    | none =>
      if (size = 4 || size = 8) && o % size = 0 then
        let r := c.pageRead .host (o / 8 * 8)
        r.1.emit (.hostRead q.reqid (((bytesOf 8 r.2.toNat).drop (o % 8)).take size) false)
      else (c.err pci .host 7 o).emit (.hostRead q.reqid (List.replicate size 0) false)
/-- HOST_REGISTER_ACCESS (R563). -/
def execHostRegisterAccess (q : HostReq) (size : Nat) (wr : Option Datum) (s : State) : Res :=
  done s (s.chip.hostRegister q size wr)

/-- The words of a Lamp sample before its zeros (R687). -/
def Chip.lampWords (c : Chip) : List Datum :=
  let temps := fun (i : Nat) => dat ((List.range 4).foldl (fun a j =>
    if 4 * i + j < 89 then a + (c.temp (4 * i + j)).toNat * 2 ^ (16 * j) else a) 0)
  [c.time.counter.extractLsb' 16 64, c.capWord]
    ++ (List.range 8).map c.freqWord ++ (List.range 3).map c.domWord ++ (List.range 23).map temps
    ++ [dat ((List.range 9).foldl (fun a m => a + c.rf (memPage m + 0x48) 15 0) 0), c.reg railAt]
    ++ (List.range 4).map (fun p => c.reg (portAt p)) ++ [c.canStatus]
/-- One sample of the Lamp (R639, R687) (DEDUCED, log 69). -/
def Chip.lampSample (c : Chip) : Chip :=
  let c := if c.dom 96 = .on then c.behind 7 else c
  let ring := c.reg (lmpPage + 0x108)
  let ptr := c.reg (lmpPage + 0x110)
  let a := ringBase ring + 512 * (fld ptr 63 32 % ringSlots ring)
  if c.dom 96 ≠ .on then c
  else if ringClosed ring || decide (ringSlots ring ≤ ringHeld ptr) then c.err lmpPage .hardware 9 0
  else if decide (c.region a = .dram) && decide (c.dom (80 + ctlOf a) ≠ .on) && !c.ctlFailed.getLsbD (ctlOf a) then c
  else (c.putSlot a 64 (c.lampWords.map Word.raw)).setReg (lmpPage + 0x110) (tailUp ptr)
/-- LAMP_SAMPLE (R687). -/
def execLampSample (s : State) : Res := done s s.chip.lampSample

end Sys2Proof.Machine
end

