-- ==== Sys2Proof/Machine/DevMem.lean ====
section
/-! DEFINITION. The memory instructions of a thread (R71–R73, R157–R168): datum and sub-word accesses, DEVICE accesses
(R370, R399, R570, R671, R673), reservations and test-and-set. -/
namespace Sys2Proof.Machine

/-- A load result lands after its two slots, in the register rd selects now (R159, R160). -/
def land (h : Hart) (rd : BitVec 6) (w : Word) : M Unit := do
  match pregOf (← hartM h).cwp rd with
  | some i =>
    need (!(decide (i ≥ 416) && isPoison w)) { cause := cPoison }
    lazyPreg h i
    modM h (fun x => { x with landings := x.landings ++ [⟨i, w, 3⟩] })
  | none => pure ()

/-- The boot and staging region (R671): the ROM, the staging buffer in the ring order of R657, and RAW zero. -/
def Chip.bootWord (c : Chip) (o : Nat) : Datum :=
  if o < 0x40000 then Config.bootRom (o / 8)
  else if decide (0x800000 ≤ o) && decide (o < 0x940000) then ((slotWords c.canary.staged)[(o - 0x800000) / 8]?).getD 0
  else 0

/-- What a datum load gives: its datum, or a load sent to the host window (R570). -/
inductive Got' where
  | now (d : Datum)
  | sent (pa : Nat)
  deriving DecidableEq, Repr

/-- The datum bytes of a RAW word at an address, zero-extended (R71, R72, R79). -/
def loadRaw (h : Hart) (r : Regime) (va : Datum) (size : Nat) : M Got' := do
  need (decide (va.toNat % size = 0)) { cause := cAlign, addr := va, access := 2 }
  let x ← translate (walkerOf h va 2) r ⟨2, false, if size = 8 then .raw else .sub⟩
  let c ← get
  match c.region x.pa with
  | .regs =>
    let (c, d) := c.pageRead (.thread h) (x.pa - regBase)
    set c
    pure (.now d)
  | .host =>
    if c.linkOk then
      set (c.emit (.hostWindowRead (dat (x.pa - hostBase))))
      pure (.sent x.pa)
    else
      set (c.loadFail x.pa 4)
      pure (.now (0 - 1))
  | .boot => pure (.now (c.bootWord (x.pa - bootBase)))
  | _ =>
    let w ← readAt h x
    need (!isPoison w) { cause := cPoison, addr := va, access := 2 }
    need (decide (w.tag = 0)) { cause := cNotRaw, addr := va, access := 2 }
    pure (.now (dat (fld (w.dat >>> (8 * (va.toNat % 8))) (8 * size - 1) 0)))

/-- Store datum bytes at an address whose word is RAW (R71–R73); a DEVICE store is performed at once (R370)
(DEDUCED, log 31). -/
def storeRaw (h : Hart) (r : Regime) (va : Datum) (size : Nat) (d : Datum) : M Unit := do
  need (decide (va.toNat % size = 0)) { cause := cAlign, addr := va, access := 3 }
  let k := walkerOf h va 3
  let x ← translate k r ⟨3, true, if size = 8 then .raw else .sub⟩
  let c ← get
  let bytes := bytesOf size d.toNat
  match c.region x.pa with
  | .regs =>
    let o := x.pa - regBase
    if decide (o = pwr + 0x100) && decide ((c.hart h).priv = 3) && c.modeWaits (fld d 63 56) then throw .wait
    else do
      setDirtyBits k r x
      modify (fun c => c.pageWrite (.thread h) o d)
  | .host => do
    if c.linkOk then do
      setDirtyBits k r x
      modify (fun c => c.emit (.hostWindowWrite (dat (x.pa - hostBase)) d))
    else modify (fun c => c.loseStore h va (x.pa / 64) r.priv.toNat)
  | .empty => modify (fun c => (c.unpopulated (.thread h) x.pa).loseStore h va (x.pa / 64) r.priv.toNat)
  | .aperture => do
    setDirtyBits k r x
    modify (fun c => c.apertureBytes h x.pa bytes)
  | _ => do
    let w ← readAt h x
    need (!isPoison w) { cause := cPoison, addr := va, access := 3 }
    need (decide (w.tag = 0)) { cause := cNotRaw, addr := va, access := 3 }
    setDirtyBits k r x
    let cells := byteCells x.pa bytes ++ (if x.mono.isSome then [] else [(tagBase + x.pa / 8, (0 : Byte))])
    modify (fun c => if x.device then c.agentWrite cells (some h)
      else c.pushStore h va r.priv.toNat (x.pa / 64) (!x.side) cells)

/-- The address of an M-form instruction: its base's datum and its scaled offset (R139, R157). -/
def addrOf (h : Hart) (o : IOps) (scale : Nat) : M Datum := do
  let w ← src h o.rs
  let a ← baseOf w
  pure (a + sx o * dat scale)

/-- The words an M-form instruction accesses (R664). -/
def touchM (h : Hart) (o : IOps) (scale : Nat) (ld st : Bool) (c : Chip) : List Touch :=
  [{ a := ((c.hart h).look o.rs).dat + sx o * dat scale, ld := ld, st := st }]

/-- LDW (R158). -/
def bodyLdw (h : Hart) (o : IOps) : M Flow := do
  specsOk [o.rd, o.rs]
  let a ← addrOf h o 8
  lazySpec h o.rd
  let w ← loadWord h a 2 .word
  land h o.rd w
  pure .seq

/-- STW (R158). -/
def bodyStw (h : Hart) (o : IOps) : M Flow := do
  specsOk [o.rd, o.rs]
  let w ← src h o.rd
  let a ← addrOf h o 8
  storeWord h a w 3 .word
  pure .seq

/-- A datum load of a size (R71, R158): the host window's answer comes later (R570). -/
def bodyLoad (h : Hart) (o : IOps) (size : Nat) : M Flow := do
  specsOk [o.rd, o.rs]
  let a ← addrOf h o size
  lazySpec h o.rd
  match ← loadRaw h (← hartM h).regime a size with
  | .now d => do
    land h o.rd (.raw d)
    pure .seq
  | .sent pa => do
    let p := pregOf (← hartM h).cwp o.rd
    modify (fun c => c.modPcie (fun e => { e with
      loads := e.loads ++ [⟨h, BitVec.ofNat 52 pa, if p.isSome then o.rd else 48, p.getD 0⟩] }))
    pure (.issued .hostLoad)

/-- A datum store of a size (R73, R158). -/
def bodyStore (h : Hart) (o : IOps) (size : Nat) : M Flow := do
  specsOk [o.rd, o.rs]
  let w ← src h o.rd
  let a ← addrOf h o size
  storeRaw h (← hartM h).regime a size w.dat
  pure .seq

/-- Store the INSN word of a datum (R158). -/
def storeInsn (h : Hart) (a d : Datum) : M Unit := do
  let r := (← hartM h).regime
  need (decide (a.toNat % 8 = 0)) { cause := cAlign, addr := a, access := 3 }
  let x ← translate (walkerOf h a 3) r ⟨3, true, .other⟩
  need (x.mono.isNone || x.mono = some 0x15) { cause := cMono, addr := a, access := 3 }
  putWord h r x a 3 ⟨0x15, d⟩

/-- STCODE (R158). -/
def bodyStcode (h : Hart) (o : IOps) : M Flow := do
  specsOk [o.rd, o.rs]
  needPriv h 1
  let w ← src h o.rd
  let a ← addrOf h o 8
  storeInsn h a w.dat
  pure .seq

/-- CORE_CFG.ATOMIC_STYLE of a hart's core (R168). -/
def Chip.tasStyle (c : Chip) (h : Hart) : Bool :=
  bit (c.reg (Blk.clu.base (clusterOf h).toNat + 0x100 + 8 * ((coreOf h).toNat % 8))) 0

/-- LDRSV (R164): an access of kind 4 (R332). -/
def bodyLdrsv (h : Hart) (o : IOps) : M Flow := do
  need (!(← get).tasStyle h) { cause := cReserved }
  specsOk [o.rd, o.rs]
  let a ← addrOf h o 8
  lazySpec h o.rd
  let (w, x) ← loadWordIn h (← hartM h).regime a 4 .other false
  modM h (fun y => { y with resv := some (BitVec.ofNat 52 (x.pa / 8 * 8)) })
  writeSpec h o.rd w
  pure .seq

/-- STCND (R164): the checks of an access of kind 4, then the store where the reservation is held. -/
def bodyStcnd (h : Hart) (o : IOps) : M Flow := do
  need (!(← get).tasStyle h) { cause := cReserved }
  specsOk [o.rd, o.rs]
  let w ← src h o.rd
  let a ← addrOf h o 8
  let r := (← hartM h).regime
  need (decide (a.toNat % 8 = 0)) { cause := cAlign, addr := a, access := 4 }
  let x ← translate (walkerOf h a 4) r ⟨4, true, .other⟩
  let old ← readAt h x
  need (!isPoison old) { cause := cPoison, addr := a, access := 4 }
  need ((← get).producible w) { cause := cTagInvalid, addr := a, access := 4 }
  need (x.mono.isNone || x.mono = some w.type) { cause := cMono, addr := a, access := 4 }
  lazyLoad h 9
  let held := decide ((← hartM h).resv = some (BitVec.ofNat 52 (x.pa / 8 * 8)))
  if held then do
    putWord h r x a 4 w
    modify (fun c => c.drain h)
  else pure ()
  modM h (fun y => { y with resv := none })
  setCond h (condBool held)
  pure .seq

/-- TAS (R167). -/
def bodyTas (h : Hart) (o : IOps) : M Flow := do
  need ((← get).tasStyle h) { cause := cReserved }
  specsOk [o.rd, o.rs]
  let a ← addrOf h o 8
  let r := (← hartM h).regime
  need (decide (a.toNat % 8 = 0)) { cause := cAlign, addr := a, access := 4 }
  let x ← translate (walkerOf h a 4) r ⟨4, true, .other⟩
  let old ← readAt h x
  need (!isPoison old) { cause := cPoison, addr := a, access := 4 }
  lazySpec h o.rd
  lazyLoad h 9
  let v ← deliver h x a 4 old
  need (x.mono.isNone || x.mono = some 0x05) { cause := cMono, addr := a, access := 4 }
  putWord h r x a 4 wTrue
  modify (fun c => c.drain h)
  writeSpec h o.rd v
  setCond h (condBool (decide (v.type = 0x04)))
  pure .seq

/-- LDW (R158). -/
def insnLdw (h : Hart) (o : IOps) : Insn := { code := encI 0x18 o, touch := touchM h o 8 true false, body := bodyLdw h o }
def execLdw (h : Hart) (o : IOps) (s : State) : Res := runs h (insnLdw h o) s
/-- STW (R158). -/
def insnStw (h : Hart) (o : IOps) : Insn := { code := encI 0x19 o, touch := touchM h o 8 false true, body := bodyStw h o }
def execStw (h : Hart) (o : IOps) (s : State) : Res := runs h (insnStw h o) s
/-- LDD (R158). -/
def insnLdd (h : Hart) (o : IOps) : Insn := { code := encI 0x1A o, touch := touchM h o 8 true false, body := bodyLoad h o 8 }
def execLdd (h : Hart) (o : IOps) (s : State) : Res := runs h (insnLdd h o) s
/-- STD (R73). -/
def insnStd (h : Hart) (o : IOps) : Insn := { code := encI 0x1B o, touch := touchM h o 8 false true, body := bodyStore h o 8 }
def execStd (h : Hart) (o : IOps) (s : State) : Res := runs h (insnStd h o) s
/-- LDB (R71). -/
def insnLdb (h : Hart) (o : IOps) : Insn := { code := encI 0x1C o, touch := touchM h o 1 true false, body := bodyLoad h o 1 }
def execLdb (h : Hart) (o : IOps) (s : State) : Res := runs h (insnLdb h o) s
/-- LDH (R71). -/
def insnLdh (h : Hart) (o : IOps) : Insn := { code := encI 0x1D o, touch := touchM h o 2 true false, body := bodyLoad h o 2 }
def execLdh (h : Hart) (o : IOps) (s : State) : Res := runs h (insnLdh h o) s
/-- LDQ (R71). -/
def insnLdq (h : Hart) (o : IOps) : Insn := { code := encI 0x1E o, touch := touchM h o 4 true false, body := bodyLoad h o 4 }
def execLdq (h : Hart) (o : IOps) (s : State) : Res := runs h (insnLdq h o) s
/-- STB (R73). -/
def insnStb (h : Hart) (o : IOps) : Insn := { code := encI 0x1F o, touch := touchM h o 1 false true, body := bodyStore h o 1 }
def execStb (h : Hart) (o : IOps) (s : State) : Res := runs h (insnStb h o) s
/-- STH (R73). -/
def insnSth (h : Hart) (o : IOps) : Insn := { code := encI 0x20 o, touch := touchM h o 2 false true, body := bodyStore h o 2 }
def execSth (h : Hart) (o : IOps) (s : State) : Res := runs h (insnSth h o) s
/-- STQ (R73). -/
def insnStq (h : Hart) (o : IOps) : Insn := { code := encI 0x21 o, touch := touchM h o 4 false true, body := bodyStore h o 4 }
def execStq (h : Hart) (o : IOps) (s : State) : Res := runs h (insnStq h o) s
/-- STCODE (R158). -/
def insnStcode (h : Hart) (o : IOps) : Insn := { code := encI 0x22 o, touch := touchM h o 8 false true, body := bodyStcode h o }
def execStcode (h : Hart) (o : IOps) (s : State) : Res := runs h (insnStcode h o) s
/-- LDRSV (R164). -/
def insnLdrsv (h : Hart) (o : IOps) : Insn := { code := encI 0x23 o, touch := touchM h o 8 true true, body := bodyLdrsv h o }
def execLdrsv (h : Hart) (o : IOps) (s : State) : Res := runs h (insnLdrsv h o) s
/-- STCND (R164). -/
def insnStcnd (h : Hart) (o : IOps) : Insn := { code := encI 0x24 o, touch := touchM h o 8 true true, body := bodyStcnd h o }
def execStcnd (h : Hart) (o : IOps) (s : State) : Res := runs h (insnStcnd h o) s
/-- TAS (R167). -/
def insnTas (h : Hart) (o : IOps) : Insn := { code := encI 0x25 o, touch := touchM h o 8 true true, body := bodyTas h o }
def execTas (h : Hart) (o : IOps) (s : State) : Res := runs h (insnTas h o) s

end Sys2Proof.Machine
end

