-- ==== Sys2Proof/Machine/TubStope.lean ====
section
/-! DEFINITION. The tub (R170–R172), and the issue of Stope (R174, R426, R433) and remote operations (R174–R177, R540). -/
namespace Sys2Proof.Machine

/-- A number of the tub's 32 that no entry has (R172). -/
def HartSt.newTub (x : HartSt) : Nat := ((List.range 32).find? (fun i => !x.tub.any (fun e => decide (e.id = i)))).getD 32
/-- Room for a tub-directed instruction (R172). -/
def needTub (h : Hart) : M Unit := do
  need (decide ((← hartM h).tub.length < 32)) { cause := cTubFull }
/-- Allocate a tub entry. -/
def allocTub (h : Hart) (addr : Datum) (pa : Option PA) (mtype : Option (BitVec 6)) (leafW : Bool) : M Nat := do
  let id := (← hartM h).newTub
  modM h (fun x => { x with tub := x.tub ++ [{ id := id, addr := addr, pa := pa, mtype := mtype, leafW := leafW, val := .waiting, bad := [] }] })
  pure id
/-- Where a result goes: the tub, nowhere, or rd (R175). -/
def destOf (h : Hart) (rd : BitVec 6) (tub noret : Bool) (addr : Datum) : M Dest := do
  if tub then do
    let id ← allocTub h addr none none false
    pure (.tub id)
  else if noret then pure .none
  else match pregOf (← hartM h).cwp rd with
    | some i => do
      lazyPreg h i
      pure (.reg i)
    | none => pure (.reg 418)
/-- What the thread does after an issue: it waits for a register result (R162, R175). -/
def afterIssue (d : Dest) (w : Wait) : Flow := match d with | .reg _ => .issued w | _ => .seq

/-- A GPTR's window address with an offset in words (R176). -/
def windowAddr (g off : Datum) : Datum := (g + off * 8) &&& 0x3FFFFFFFFFFF
/-- A word that names a place on another module: its row has GLOB = 1. -/
def gptrOf (w : Word) : M Datum := do
  need ((← get).glob w) { cause := cType }
  pure w.dat

/-- Issue a remote operation in the thread's partition (R523). -/
def issue (h : Hart) (op : Nat) (g addr : Datum) (ws : List Word) (d : Dest) (gen : BitVec 16) : M Unit :=
  modify (fun c => c.issueRemote h op g addr ws d gen (c.hart h).vmid (c.hart h).priv)

/-- TUBLD (R170). -/
def bodyTubld (h : Hart) (o : IOps) : M Flow := do
  zeroField o.rd
  specsOk [o.rs]
  let w ← src h o.rs
  if (← get).glob w then do
    needTub h
    let a := windowAddr w.dat (sx o)
    let id ← allocTub h a none none false
    issue h 1 w.dat a [] (.tub id) 0
  else do
    let b ← baseOf w
    let a := b + sx o * 8
    need (decide (a.toNat % 8 = 0)) { cause := cAlign, addr := a, access := 2 }
    let x ← translate (walkerOf h a 2) (← hartM h).regime ⟨2, false, .other⟩
    needTub h
    let _ ← allocTub h a (some (BitVec.ofNat 52 x.pa)) x.mono x.w
  modify (fun c => c.pmc h 0x07 1)
  pure .seq

/-- Errors of the oldest tub entry's stored word are met as it is read (R29, R36, R77): the word, POISON where two or more bits
of a part are in error. Their entries name the entry by its number (DESIGN CHOICE, log 30). -/
def meetTub (h : Hart) (e : TubEntry) (w : Word) : M Word := do
  modify (fun c => e.bad.foldl (fun (c : Chip) f => c.arrayLog (1, (coreOf h).toNat) 7 f.2 (dat e.id) w.dat) c)
  pure (if e.bad.any (fun f => decide (f.2 ≥ 2)) then ⟨poisonTag, w.dat⟩ else w)

/-- TUBPOP (R171): the oldest entry, once it has arrived. -/
def bodyTubpop (h : Hart) (o : AOps) : M Flow := do
  zeroField o.rs
  zeroField o.rt
  specsOk [o.rd]
  match (← hartM h).tub with
  | [] => raise { cause := cTubEmpty }
  | e :: rest =>
    if e.val = .waiting then throw .wait
    else do
      lazySpec h o.rd
      modM h (fun x => { x with tub := rest })
      match e.val with
      | .word w => do
        let w ← meetTub h e w
        need (!isPoison w) { cause := cPoison, addr := e.addr, access := 2 }
        need ((← get).wellFormed w) { cause := cTagInvalid, addr := e.addr, access := 2 }
        writeSpec h o.rd w
        pure .seq
      | .invalid => raise { cause := cTagInvalid, addr := e.addr, access := 2 }
      | .remote code => raise { cause := cRemote, addr := e.addr, access := 10, detail := code.toNat }
      | _ => raise { cause := cPoison, addr := e.addr, access := 2 }

/-- TUBCNT (R172). -/
def bodyTubcnt (h : Hart) (o : AOps) : M Flow := do
  zeroField o.rs
  zeroField o.rt
  specsOk [o.rd]
  writeSpec h o.rd (.raw (dat (← hartM h).tub.length))
  pure .seq

/-- The operand tags of the atomic operations (R174): AFADD 0, ACAS 1, AXCHG 2, AOR 3. -/
def atomicTags (op : Nat) (w : Word) : M Unit := do
  let c ← get
  if op = 0 then need (decide (w.type.toNat ≤ 1)) { cause := cType }
  else if op = 3 then need (!c.ptr w) { cause := cType }
  else pure ()
/-- A new word that ACAS or AXCHG may store (R56, R174). -/
def newWord (op : Nat) (w : Word) (a : Datum) (kind : Nat) : M Unit := do
  if op = 1 ∨ op = 2 then need ((← get).producible w) { cause := cTagInvalid, addr := a, access := kind } else pure ()

/-- The request of ABUMP (R174, R721): a RAW word, whose type's row has PTR = 1 (DEDUCED, log 42). -/
def bumpType (w : Word) : M Unit := do
  need (decide (w.tag = 0)) { cause := cType }
  need ((← get).ptr ⟨(w.dat.extractLsb' 0 6).zeroExtend 8, 0⟩) { cause := cType }

/-- Send a Stope operation to its controller (R426): the thread waits where the controller's units have no free context (R237).
An operation that ends at its issue takes none (DESIGN CHOICE, log 34). -/
def sendStope (h : Hart) (op : Nat) (mode : BitVec 3) (va : Datum) (x : Xl) (expect arg cell : Word) (d : Dest)
    (result : Option OpResult) : M Unit := do
  let y ← hartM h
  let c ← get
  if result.isNone && decide (c.stopeBusy (ctlOf x.pa) ≥ stopeContexts) then throw .wait else pure ()
  let q : StopeReq :=
    { id := c.fresh, hart := h, op := BitVec.ofNat 3 op, mode := mode, ctl := ctlOf x.pa, va := va, xl := x,
      expect := expect, arg := arg, dest := d, regime := y.regime, epoch := y.epoch, good := c.goodOf y, cell := cell,
      hops := 0, settled := false, read := [], forward := none, result := result }
  set ((Chip.tick { c with stope := c.stope ++ [q] }).pmc h 0x08 1)

/-- The reserved combinations of OPT (R142) (DEDUCED, log 42). -/
def optReserved (op : Nat) (tub noret : Bool) (mode : BitVec 3) (rd : BitVec 6) : Bool :=
  (tub && noret) || (noret && (op = 5 || decide (rd ≠ 0))) || (decide (mode ≠ 0) && op ≠ 5) || decide (mode.toNat ≥ 3)

/-- AFADD, ACAS, AXCHG, AOR and ABUMP at issue (R174, R426). -/
def bodyAtomic (h : Hart) (o : AOps) (op : Nat) (tub noret : Bool) (mode : BitVec 3) : M Flow := do
  need (!optReserved op tub noret mode o.rd) { cause := cReserved }
  specsOk [o.rd, o.rs, o.rt]
  let b ← src h o.rs
  let w ← src h o.rt
  let e ← (if op = 1 then src h o.rd else pure (.raw 0))
  let a ← baseOf b
  if op = 4 then bumpType w else atomicTags op w
  need (decide (a.toNat % (if op = 4 then 16 else 8) = 0)) { cause := cAlign, addr := a, access := 4 }
  let x ← translate (walkerOf h a 4) (← hartM h).regime ⟨4, true, .other⟩
  newWord op w a 4
  need (x.mono.isNone || !(decide (op = 1) || decide (op = 2)) || x.mono = some w.type) { cause := cMono, addr := a, access := 4 }
  if op = 4 then need (decide (fld w.dat 7 6 = 0) && decide (fld w.dat 63 48 = 0)) { cause := cIllegal } else pure ()
  if tub then needTub h else pure ()
  let d ← destOf h o.rd tub noret a
  sendStope h op mode a x e w (.raw 0) d none
  pure (afterIssue d .stope)

/-- What a head cell on a DEVICE or SIDE_EFFECT page makes of a walk (R433–R435). -/
def headResult (mode : BitVec 3) (cell key : Word) (x : Xl) : Option OpResult :=
  if !x.side && !x.device then none
  else if mode = 2 && decide (key.dat ≠ 0) then some (sideFault x cell.dat)
  else some (.word cell)

/-- AWALK at issue (R174, R433); a walk from NIL ends at once. -/
def bodyAwalk (h : Hart) (o : AOps) (tub noret : Bool) (mode : BitVec 3) : M Flow := do
  need (!optReserved 5 tub noret mode o.rd) { cause := cReserved }
  specsOk [o.rd, o.rs, o.rt]
  let cell ← src h o.rs
  let key ← src h o.rt
  need (decide (cell.type = 0x08) || decide (cell.type = 0x04)) { cause := cType }
  need (mode ≠ 2 || decide (key.type = 0x01)) { cause := cType }
  let inRange := mode ≠ 2 || (decide (0 ≤ key.dat.toInt) && decide (key.dat.toInt ≤ 4096))
  if cell.type = 0x04 then do
    need inRange { cause := cBounds }
    if tub then needTub h else pure ()
    let d ← destOf h o.rd tub false cell.dat
    sendStope h 5 mode cell.dat { pa := 0 } (.raw 0) key cell d (some (.word wNil))
    pure (afterIssue d .stope)
  else do
    let a := cell.dat
    need (decide (a.toNat % 8 = 0)) { cause := cAlign, addr := a, access := 2 }
    let x ← translate (walkerOf h a 2) (← hartM h).regime ⟨2, false, .other⟩
    need inRange { cause := cBounds }
    if tub then needTub h else pure ()
    let d ← destOf h o.rd tub false a
    sendStope h 5 mode a x (.raw 0) key cell d (headResult mode cell key x)
    pure (afterIssue d .stope)

/-- GLD (R174, R176). -/
def bodyGld (h : Hart) (o : IOps) : M Flow := do
  specsOk [o.rd, o.rs]
  let g ← gptrOf (← src h o.rs)
  let a := windowAddr g (sx o)
  let d ← destOf h o.rd false false a
  issue h 1 g a [] d 0
  pure (.issued .remote)

/-- GST (R174, R176). -/
def bodyGst (h : Hart) (o : IOps) : M Flow := do
  specsOk [o.rd, o.rs]
  let w ← src h o.rd
  let g ← gptrOf (← src h o.rs)
  let a := windowAddr g (sx o)
  need ((← get).producible w) { cause := cTagInvalid, addr := a, access := 10 }
  issue h 2 g a [w] .none 0
  pure .seq

/-- GAMO (R174): FADD 0, CAS 1, XCHG 2, OR 3. -/
def bodyGamo (h : Hart) (o : AOps) (op : Nat) (tub : Bool) : M Flow := do
  specsOk [o.rd, o.rs, o.rt]
  let b ← src h o.rs
  let w ← src h o.rt
  let e ← (if op = 1 then src h o.rd else pure (.raw 0))
  let g ← gptrOf b
  atomicTags op w
  let a := windowAddr g 0
  newWord op w a 10
  if tub then needTub h else pure ()
  let d ← destOf h o.rd tub false a
  issue h (3 + op) g a (if op = 1 then [e, w] else [w]) d 0
  pure (afterIssue d .remote)

/-- SEND (R177, R540). -/
def bodySend (h : Hart) (o : AOps) (n : Nat) : M Flow := do
  need (decide (n ≤ 8)) { cause := cReserved }
  zeroField o.rd
  zeroField o.rt
  specsOk [o.rs]
  let e ← src h o.rs
  let ws ← (List.range n).mapM (fun i => src h (BitVec.ofNat 6 (16 + i)))
  let c ← get
  need (ws.all c.producible) { cause := cTagInvalid }
  need (decide (e.tag = 0)) { cause := cType }
  need (ws.all (fun w => !(c.ptr w && !c.glob w))) { cause := cType }
  need (decide (fld e.dat 44 32 = 0) && decide (fld e.dat 15 11 = 0)) { cause := cIllegal }
  issue h 7 e.dat e.dat ws .none (e.dat.extractLsb' 16 16)
  pure .seq

/-- The word at a register's address, as a Stope or tub instruction accesses it (R664). -/
def touchAt (h : Hart) (r : BitVec 6) (n : Nat) (st : Bool) (c : Chip) : List Touch := [{ a := ((c.hart h).look r).dat, n := n, st := st }]
/-- The word TUBLD accesses; a global base names no address here. -/
def touchTubld (h : Hart) (o : IOps) (c : Chip) : List Touch :=
  if c.glob ((c.hart h).look o.rs) then [] else touchM h o 8 true false c

/-- The function code of an OPT instruction (R142). -/
def optFn (op : Nat) (tub noret : Bool) (mode : BitVec 3) : Nat := op + 8 * b2n tub + 16 * b2n noret + 32 * mode.toNat
/-- An atomic operation as an instruction. -/
def insnAtomic (h : Hart) (o : AOps) (op : Nat) (tub noret : Bool) (mode : BitVec 3) : Insn :=
  { code := encA 0x2A (optFn op tub noret mode) o, touch := touchAt h o.rs (if op = 4 then 2 else 1) true
    body := bodyAtomic h o op tub noret mode }

/-- TUBLD (R170). -/
def insnTubld (h : Hart) (o : IOps) : Insn := { code := encI 0x26 o, touch := touchTubld h o, body := bodyTubld h o }
def execTubld (h : Hart) (o : IOps) (s : State) : Res := runs h (insnTubld h o) s
/-- TUBPOP (R171). -/
def insnTubpop (h : Hart) (o : AOps) : Insn := { code := encA 0x03 0x20 o, body := bodyTubpop h o }
def execTubpop (h : Hart) (o : AOps) (s : State) : Res := runs h (insnTubpop h o) s
/-- TUBCNT (R172). -/
def insnTubcnt (h : Hart) (o : AOps) : Insn := { code := encA 0x03 0x21 o, body := bodyTubcnt h o }
def execTubcnt (h : Hart) (o : AOps) (s : State) : Res := runs h (insnTubcnt h o) s
/-- AFADD (R427). -/
def execAfadd (h : Hart) (o : AOps) (tub noret : Bool) (mode : BitVec 3) (s : State) : Res :=
  runs h (insnAtomic h o 0 tub noret mode) s
/-- ACAS (R427). -/
def execAcas (h : Hart) (o : AOps) (tub noret : Bool) (mode : BitVec 3) (s : State) : Res :=
  runs h (insnAtomic h o 1 tub noret mode) s
/-- AXCHG (R427). -/
def execAxchg (h : Hart) (o : AOps) (tub noret : Bool) (mode : BitVec 3) (s : State) : Res :=
  runs h (insnAtomic h o 2 tub noret mode) s
/-- AOR (R427). -/
def execAor (h : Hart) (o : AOps) (tub noret : Bool) (mode : BitVec 3) (s : State) : Res :=
  runs h (insnAtomic h o 3 tub noret mode) s
/-- ABUMP (R427). -/
def execAbump (h : Hart) (o : AOps) (tub noret : Bool) (mode : BitVec 3) (s : State) : Res :=
  runs h (insnAtomic h o 4 tub noret mode) s
/-- AWALK (R433). -/
def insnAwalk (h : Hart) (o : AOps) (tub noret : Bool) (mode : BitVec 3) : Insn :=
  { code := encA 0x2A (optFn 5 tub noret mode) o, touch := touchAt h o.rs 1 false, body := bodyAwalk h o tub noret mode }
def execAwalk (h : Hart) (o : AOps) (tub noret : Bool) (mode : BitVec 3) (s : State) : Res :=
  runs h (insnAwalk h o tub noret mode) s
/-- GLD (R174). -/
def insnGld (h : Hart) (o : IOps) : Insn := { code := encI 0x27 o, body := bodyGld h o }
def execGld (h : Hart) (o : IOps) (s : State) : Res := runs h (insnGld h o) s
/-- GST (R174). -/
def insnGst (h : Hart) (o : IOps) : Insn := { code := encI 0x28 o, body := bodyGst h o }
def execGst (h : Hart) (o : IOps) (s : State) : Res := runs h (insnGst h o) s
/-- GAMO as an instruction (R142). -/
def insnGamo (h : Hart) (o : AOps) (op : Nat) (tub : Bool) : Insn :=
  { code := encA 0x29 (op + 16 * b2n tub) o, body := bodyGamo h o op tub }
/-- GAMO_FADD (R174). -/
def execGamoFadd (h : Hart) (o : AOps) (tub : Bool) (s : State) : Res := runs h (insnGamo h o 0 tub) s
/-- GAMO_CAS (R174). -/
def execGamoCas (h : Hart) (o : AOps) (tub : Bool) (s : State) : Res := runs h (insnGamo h o 1 tub) s
/-- GAMO_XCHG (R174). -/
def execGamoXchg (h : Hart) (o : AOps) (tub : Bool) (s : State) : Res := runs h (insnGamo h o 2 tub) s
/-- GAMO_OR (R174). -/
def execGamoOr (h : Hart) (o : AOps) (tub : Bool) (s : State) : Res := runs h (insnGamo h o 3 tub) s
/-- SEND (R177). -/
def insnSend (h : Hart) (o : AOps) (n : BitVec 4) : Insn := { code := encA 0x29 (0x20 + n.toNat) o, body := bodySend h o n.toNat }
def execSend (h : Hart) (o : AOps) (n : BitVec 4) (s : State) : Res := runs h (insnSend h o n) s

end Sys2Proof.Machine
end

