-- ==== Sys2Proof/Machine/Fences.lean ====
section
/-! DEFINITION. Fences (R271, R372–R374), serialising instructions (R163), and cache maintenance (R178, R379–R391). -/
namespace Sys2Proof.Machine

/-- No earlier load of a thread is unsatisfied: its tub loads and tub-directed operations have arrived (R372, R373)
(DESIGN CHOICE, log 29). -/
def Chip.loadsDone (c : Chip) (h : Hart) : Bool := !(c.hart h).tub.any (fun e => decide (e.val = .waiting))
/-- Every earlier store outside the store buffer is performed or reported: Stope operations (R431), GST, GAMO and SEND
(R536) (DESIGN CHOICE, log 29). -/
def Chip.storesDone (c : Chip) (h : Hart) : Bool :=
  !c.stope.any (fun q => decide (q.hart = h) && (q.result.isNone || decide (q.dest = .none)))
    && !c.remote.any (fun o => decide (o.hart = h) && decide (o.op ≠ 1))

/-- A serialising instruction waits for older loads to land and older stores to be accepted (R163, R271). -/
def serialise (h : Hart) : M Unit := do
  let c ← get
  if !c.storesDone h then throw .wait
  else set ((c.drain h).modHart h landAll)

/-- A fence: `ld` waits for earlier loads, `st` for earlier stores (R372). -/
def bodyFence (h : Hart) (o : AOps) (ld st : Bool) : M Flow := do
  zeroField o.rd
  zeroField o.rs
  zeroField o.rt
  let c ← get
  if (ld && !c.loadsDone h) || (st && !c.storesDone h) then throw .wait
  else do
    set (if st then c.drain h else c.closeSb h)
    pure .seq

/-- FENCE_L (R372). -/
def insnFenceL (h : Hart) (o : AOps) : Insn := { code := encA 0x03 0x00 o, body := bodyFence h o true false }
def execFenceL (h : Hart) (o : AOps) (s : State) : Res := runs h (insnFenceL h o) s
/-- FENCE_S (R372). -/
def insnFenceS (h : Hart) (o : AOps) : Insn := { code := encA 0x03 0x01 o, body := bodyFence h o false true }
def execFenceS (h : Hart) (o : AOps) (s : State) : Res := runs h (insnFenceS h o) s
/-- FENCE_LS (R372). -/
def insnFenceLs (h : Hart) (o : AOps) : Insn := { code := encA 0x03 0x02 o, body := bodyFence h o true true }
def execFenceLs (h : Hart) (o : AOps) (s : State) : Res := runs h (insnFenceLs h o) s
/-- FENCE_G (R372). -/
def insnFenceG (h : Hart) (o : AOps) : Insn := { code := encA 0x03 0x03 o, body := bodyFence h o true true }
def execFenceG (h : Hart) (o : AOps) (s : State) : Res := runs h (insnFenceG h o) s

/-- Maintenance of one line in every cache (R379, R381, R391): op 0 clean, 1 invalidate, 2 clean and invalidate; `keep` is a
range operation with INCLUDE_LOCKED = 0. -/
def Chip.maintainLine (c : Chip) (l op : Nat) (keep : Bool) : Chip :=
  let y := c.caches.maintain c.cacheEnv l (Config.freeNat c.fresh) op keep
  if op = 1 then c.setDropped l y else c.setCaches y
/-- Maintenance of the lines of a PA interval (R379, R391). The thread's own buffered stores there go first
(DESIGN CHOICE, log 33). -/
def Chip.maintain (c : Chip) (h : Hart) (p n op : Nat) (keep : Bool) : Chip :=
  let within := fun (l : Nat) => decide (p / 64 ≤ l) && decide (l ≤ (p + n - 1) / 64)
  if n = 0 || c.region p ≠ .dram then c
  else
    let c := (c.sb.filter (fun e => decide (e.hart = h) && within e.line)).foldl Chip.acceptEntry c
    let ls := ((c.caches.slots.map (fun s => s.line)) ++ c.caches.dirty.map (fun d => d.line)).eraseDups
    (ls.filter within).foldl (fun (c : Chip) l => c.maintainLine l op keep) c

/-- The access a maintenance operation by address or range is translated as (R380). -/
def cmoAcc (op : Nat) : Acc' := ⟨if op = 0 then 2 else 3, decide (op ≠ 0), .maint⟩

/-- Maintenance by address (R178, R379, R380): no table marks rd 0 (R140), and it names no operand. -/
def bodyCmoAddr (h : Hart) (o : AOps) (op : Nat) : M Flow := do
  zeroField o.rt
  specsOk [o.rd, o.rs]
  if op = 1 then needPriv h 1 else pure ()
  let a ← baseOf (← src h o.rs)
  let acc := cmoAcc op
  let x ← translate (walkerOf h a acc.kind) (← hartM h).regime acc
  if x.device then pure ()
  else modify (fun c => c.maintain h x.pa 1 op false)
  pure .seq

/-- The cache a set-and-way operation acts on (R379, R382), by its LEVEL: the core's L1 data and instruction caches, its
cluster's L2, its tile's L3. -/
def levelOf (h : Hart) (level : Nat) : CacheKind × Nat :=
  if level = 1 then (.l1d, (coreOf h).toNat) else if level = 2 then (.l1i, (coreOf h).toNat)
  else if level = 3 then (.l2, (clusterOf h).toNat) else (.l3, tileOf h)
/-- Maintenance of one slot, where it holds a line or is reserved for one (R379, R382, R391). -/
def Chip.maintainSlot (c : Chip) (h : Hart) (level set way op : Nat) : Chip :=
  let k := levelOf h level
  match c.caches.slotAt k.1 k.2 set way with
  | none => c
  | some s =>
    let y := c.caches.maintainSlot c.cacheEnv s (Config.freeNat c.fresh) op
    if op = 1 then c.setDropped s.line y else c.setCaches y

/-- A set-and-way selector is legal (R382). -/
def selectorOk (d : Datum) : Bool :=
  let level := fld d 31 28
  let set := fld d 27 14
  let way := fld d 3 0
  decide (fld d 63 32 = 0) && decide (fld d 13 4 = 0) &&
    (if level = 1 ∨ level = 2 then decide (set < 128) && decide (way < 4)
     else if level = 3 then decide (set < 4096)
     else decide (level = 4))

/-- Maintenance by set and way (R379, R382). -/
def bodyCmoSet (h : Hart) (o : AOps) (op : Nat) : M Flow := do
  zeroField o.rt
  specsOk [o.rd, o.rs]
  needPriv h 3
  let d ← rawOf (← src h o.rs)
  need (selectorOk d) { cause := cIllegal }
  modify (fun c => c.maintainSlot h (fld d 31 28) (fld d 27 14) (fld d 3 0) op)
  pure .seq

/-- CMO_RANGE, CMO_RSTART and CMO_RNEXT of a range operation suspended at an address (R385–R387). -/
def HartSt.suspendRange (x : HartSt) (fn : Nat) (start next : Datum) : HartSt :=
  let keep := b2n (bit (x.sprD 0x118) 0)
  let v := 2 ^ 63 + fld (x.sprD 0x007) 15 0 * 2 ^ 32 + fld (x.sprD 0x110) 11 0 * 2 ^ 16 + x.priv * 2 ^ 8 + fn % 16 * 2 ^ 4 + keep
  ((x.setSpr 0x118 (dat v)).setSpr 0x119 start).setSpr 0x11A next
/-- Where a range operation begins: at CMO_RNEXT where the registers match it (R387). -/
def HartSt.rangeFrom (x : HartSt) (fn : Nat) (start : Datum) (len : Nat) : Nat :=
  let v := x.sprD 0x118
  let next := (x.sprD 0x11A).toNat
  if bit v 63 && decide (fld v 7 4 = fn % 16) && decide (fld v 9 8 = x.priv) && decide (fld v 47 32 = fld (x.sprD 0x007) 15 0)
    && decide (fld v 27 16 = fld (x.sprD 0x110) 11 0) && decide (x.sprD 0x119 = start)
    && decide (start.toNat ≤ next) && decide (next ≤ start.toNat + len)
  then next else start.toNat

/-- One page's part of a range: the addresses from a up to stop (R380, R387). -/
def rangePage (h : Hart) (fn : Nat) (start : Datum) (a n : Nat) : M Unit := do
  let op := fn % 4
  let acc := cmoAcc op
  let x ← tryCatch (translate (walkerOf h (dat a) acc.kind) (← hartM h).regime acc) (fun e => match e with
    | .trap t => do
      modM h (fun x => x.suspendRange fn start (dat a))
      throw (.trap { t with addr := dat (a / 2 ^ 16 * 2 ^ 16) })
    | e => throw e)
  let keep := !bit ((← hartM h).sprD 0x118) 0
  if x.device then pure () else modify (fun c => c.maintain h x.pa n op keep)

/-- The pages of a range from an address to its end (R383) (DESIGN CHOICE, log 33). -/
def rangeGo (h : Hart) (fn : Nat) (start : Datum) (stop : Nat) : Nat → Nat → M Unit
  | 0, _ => pure ()
  | fuel + 1, a =>
    if stop ≤ a then pure ()
    else do
      let e := min stop ((a / 2 ^ 16 + 1) * 2 ^ 16)
      rangePage h fn start a (e - a)
      rangeGo h fn start stop fuel e

/-- The operands of a range operation (R178, R383, R721). -/
def rangeArgs (h : Hart) (o : AOps) : M (Datum × Nat) := do
  specsOk [o.rd, o.rs, o.rt]
  needPriv h 1
  let b ← src h o.rs
  let l ← src h o.rt
  let a ← baseOf b
  let n ← rawOf l
  need (decide (n.toNat ≤ 2 ^ 40)) { cause := cIllegal }
  pure (a, n.toNat)
/-- Maintenance by range (R383, R387). A length of 0 has no effect: progress held for another operation stays held. -/
def bodyCmoRange (h : Hart) (o : AOps) (fn : Nat) : M Flow := do
  let (a, n) ← rangeArgs h o
  if n = 0 then pure ()
  else do
    let from_ := (← hartM h).rangeFrom fn a n
    rangeGo h fn a (a.toNat + n) (n / 2 ^ 16 + 2) from_
    modM h (fun x => x.setSpr 0x118 (setFld (x.sprD 0x118) 63 63 0))
  pure .seq

/-- CLEAN_BY_ADDRESS (R379). -/
def insnCleanAddr (h : Hart) (o : AOps) : Insn := { code := encA 0x03 0x40 o, body := bodyCmoAddr h o 0 }
def execCleanByAddress (h : Hart) (o : AOps) (s : State) : Res := runs h (insnCleanAddr h o) s
/-- INVALIDATE_BY_ADDRESS (R379). -/
def insnInvalAddr (h : Hart) (o : AOps) : Insn := { code := encA 0x03 0x41 o, body := bodyCmoAddr h o 1 }
def execInvalidateByAddress (h : Hart) (o : AOps) (s : State) : Res := runs h (insnInvalAddr h o) s
/-- CLEAN_INVALIDATE_BY_ADDRESS (R379). -/
def insnCiAddr (h : Hart) (o : AOps) : Insn := { code := encA 0x03 0x42 o, body := bodyCmoAddr h o 2 }
def execCleanInvalidateByAddress (h : Hart) (o : AOps) (s : State) : Res := runs h (insnCiAddr h o) s
/-- CLEAN_BY_SET_WAY (R382). -/
def insnCleanSet (h : Hart) (o : AOps) : Insn := { code := encA 0x03 0x44 o, body := bodyCmoSet h o 0 }
def execCleanBySetWay (h : Hart) (o : AOps) (s : State) : Res := runs h (insnCleanSet h o) s
/-- INVALIDATE_BY_SET_WAY (R382). -/
def insnInvalSet (h : Hart) (o : AOps) : Insn := { code := encA 0x03 0x45 o, body := bodyCmoSet h o 1 }
def execInvalidateBySetWay (h : Hart) (o : AOps) (s : State) : Res := runs h (insnInvalSet h o) s
/-- CLEAN_INVALIDATE_BY_SET_WAY (R382). -/
def insnCiSet (h : Hart) (o : AOps) : Insn := { code := encA 0x03 0x46 o, body := bodyCmoSet h o 2 }
def execCleanInvalidateBySetWay (h : Hart) (o : AOps) (s : State) : Res := runs h (insnCiSet h o) s
/-- CLEAN_BY_RANGE (R383). -/
def insnCleanRange (h : Hart) (o : AOps) : Insn := { code := encA 0x03 0x48 o, body := bodyCmoRange h o 0x48 }
def execCleanByRange (h : Hart) (o : AOps) (s : State) : Res := runs h (insnCleanRange h o) s
/-- INVALIDATE_BY_RANGE (R383). -/
def insnInvalRange (h : Hart) (o : AOps) : Insn := { code := encA 0x03 0x49 o, body := bodyCmoRange h o 0x49 }
def execInvalidateByRange (h : Hart) (o : AOps) (s : State) : Res := runs h (insnInvalRange h o) s
/-- CLEAN_INVALIDATE_BY_RANGE (R383). -/
def insnCiRange (h : Hart) (o : AOps) : Insn := { code := encA 0x03 0x4A o, body := bodyCmoRange h o 0x4A }
def execCleanInvalidateByRange (h : Hart) (o : AOps) (s : State) : Res := runs h (insnCiRange h o) s

end Sys2Proof.Machine
end

