-- ==== Sys2Proof/Machine/Control.lean ====
section
/-! DEFINITION. Control transfers (R148, R179, R268), the shadow stack (R301–R303), system calls (R298, R299), the waits
(R180, R181), and loop set-up (R106). -/
namespace Sys2Proof.Machine

/-- The PC after a thread's present instruction (R136) (DEDUCED, log 17). -/
def HartSt.nextPc (x : HartSt) : Datum := pcForm (x.pc + 4)

/-- An instruction that needs the window to advance (R94). -/
def needAdvance (h : Hart) : M Unit := do
  let x ← hartM h
  need (decide (x.resident ≠ 15)) { cause := if x.spilled < fld (x.sprD 0x006) 15 0 then cWinOver else cDepth }
/-- An instruction that needs the window to retreat (R95). -/
def needRetreat (h : Hart) : M Unit := do
  need (decide ((← hartM h).resident ≠ 1)) { cause := cWinUnder }

/-- A transfer taken to a target, with its trace record (R666). -/
def jumpTo (h : Hart) (target : Datum) : M Flow := do
  let pc := (← hartM h).pc
  modify (fun c => c.trace h 1 pc (pcForm target) 0)
  pure (.jump target)

/-- BR (R148). -/
def bodyBr (h : Hart) (cond : BitVec 4) (disp : BitVec 22) : M Flow := do
  need (decide (cond.toNat < 12)) { cause := cReserved }
  if cond = 0 then pure () else lazyLoad h 9
  let x ← hartM h
  if condHolds cond (x.sprD 0x00F) then jumpTo h (x.pc + disp.signExtend 64 * 4) else pure .seq

/-- A shadow stack is in use: at U with SSP not zero (R301). -/
def HartSt.shadow (x : HartSt) : Bool := decide (x.priv = 0) && decide (x.sprD 0x005 ≠ 0)
/-- The shadow push of a call (R301, R303). -/
def shadowPush (h : Hart) (link : Word) : M Unit := do
  let x ← hartM h
  if !x.shadow then pure ()
  else do
    let sp := x.sprD 0x005 - 8
    storeWord h sp link 5
    modM h (fun x => x.putSpr 0x005 sp)
/-- The shadow compare of a return (R302). -/
def shadowCompare (h : Hart) (link : Word) : M Unit := do
  let x ← hartM h
  if !x.shadow then pure ()
  else do
    let sp := x.sprD 0x005
    let w ← loadWord h sp 6
    need (decide (w.type = link.type) && decide (w.dat = link.dat)) { cause := cCfi, addr := sp, access := 6 }
    modM h (fun x => x.putSpr 0x005 (sp + 8))

/-- A call to a target (R91, R94, R179, R301). -/
def callTo (h : Hart) (target : Datum) : M Flow := do
  needAdvance h
  lazyWindow h
  let link := wCode (← hartM h).nextPc
  shadowPush h link
  let f ← jumpTo h target
  modM h (fun x => x.advance link)
  pure f
/-- CALL (R179). -/
def bodyCall (h : Hart) (cond : BitVec 4) (disp : BitVec 22) : M Flow := do
  zeroField cond
  callTo h ((← hartM h).pc + disp.signExtend 64 * 4)
/-- A CODE pointer to jump to (R179). -/
def codeOf (h : Hart) (r : BitVec 6) : M Datum := do
  let w ← src h r
  need (decide (w.type = 0x12)) { cause := cType }
  pure w.dat
/-- CALL by register (R179). -/
def bodyCallReg (h : Hart) (o : AOps) : M Flow := do
  zeroField o.rd
  zeroField o.rt
  specsOk [o.rs]
  callTo h (← codeOf h o.rs)

/-- RET (R91, R95, R179, R302). -/
def bodyRet (h : Hart) (o : AOps) : M Flow := do
  zeroField o.rd
  zeroField o.rs
  zeroField o.rt
  needRetreat h
  lazyWindow h
  let link ← readPreg h (400 + (← hartM h).cwp)
  need (!isPoison link) { cause := cPoison }
  need (decide (link.type = 0x12)) { cause := cType }
  shadowCompare h link
  let f ← jumpTo h link.dat
  modM h HartSt.retreat
  pure f

/-- JMPL (R179). -/
def bodyJmpl (h : Hart) (o : IOps) : M Flow := do
  specsOk [o.rd, o.rs]
  let a ← codeOf h o.rs
  writeSpec h o.rd (wCode (← hartM h).nextPc)
  jumpTo h (a + sx o * 4)

/-- TRAP (R268). -/
def bodyTrap (o : IOps) : M Flow := do
  zeroField o.rd
  zeroField o.rs
  raise { cause := cSoft, detail := o.imm.toNat }

/-- Exchange SP with SYS_ENTRY_SP (R298, R299). -/
def HartSt.swapSp (x : HartSt) : HartSt :=
  (x.putPreg 416 (.raw (x.sprD 0x00A))).putSpr 0x00A x.sp

/-- SYSCALL (R298). -/
def bodySyscall (h : Hart) (o : AOps) : M Flow := do
  zeroField o.rd
  zeroField o.rs
  zeroField o.rt
  need (decide ((← hartM h).priv = 0)) { cause := cIllegal }
  serialise h
  needAdvance h
  lazyWindow h
  lazyLoad h 9
  modM h (fun x =>
    let link := wCode x.nextPc
    let y := (x.advance link).setSprW 0x00B link
    let y := (y.putSpr 0x00C x.pstate).swapSp
    y.putSpr 0x000 (setFld (x.pstate &&& 0x0B) 1 0 1))
  pure (.jump ((← hartM h).sprD 0x009))

/-- SYS_RET_PSTATE may be restored by SYSRET: PRIV = U and no field invalid under R289 (R299). -/
def HartSt.sysretOk (x : HartSt) : Bool :=
  let p := x.sprD 0x00C
  decide (fld p 63 8 = 0) && decide (fld p 1 0 = 0) && decide (fld p 6 4 ≤ 4)
    && !(bit p 7 && decide (fld (x.sprD 0x04C) 15 0 = 0))

/-- SYSRET (R299). -/
def bodySysret (h : Hart) (o : AOps) : M Flow := do
  zeroField o.rd
  zeroField o.rs
  zeroField o.rt
  needPriv h 1
  serialise h
  lazyLoad h 9
  let x ← hartM h
  need x.sysretOk { cause := cIllegal }
  need (!isPoison (x.sprW 0x00B)) { cause := cPoison }
  need (decide ((x.sprW 0x00B).type = 0x12)) { cause := cType }
  needRetreat h
  lazyWindow h
  modM h (fun x => (x.retreat.putSpr 0x000 (x.sprD 0x00C)).swapSp)
  pure (.jump (x.sprD 0x00B))

/-- ERET (R289). -/
def bodyEret (h : Hart) (o : AOps) : M Flow := do
  zeroField o.rd
  zeroField o.rs
  zeroField o.rt
  needPriv h 1
  serialise h
  let pc ← eretBody h
  pure (.jump pc)

/-- WAITT (R180, R721): it waits at its own PC for its target, which it reads before the landings that serialising waits for
(DESIGN CHOICE, log 77). -/
def bodyWaitt (h : Hart) (o : AOps) : M Flow := do
  zeroField o.rd
  zeroField o.rt
  specsOk [o.rs]
  let t ← rawOf (← src h o.rs)
  serialise h
  let now := (← get).time.counter.extractLsb' 16 64
  if reached now t then do
    setCond h (condBool true)
    pure .seq
  else do
    modM h (fun x => { x with run := .waitt t })
    pure .routine

/-- WFI (R181): with no interrupt pending, it waits after itself. -/
def bodyWfi (h : Hart) (o : AOps) : M Flow := do
  zeroField o.rd
  zeroField o.rs
  zeroField o.rt
  needPriv h 1
  serialise h
  let c ← get
  if c.intPend h = 0 then modM h (fun x => { x with run := .wfi }) else pure ()
  pure .seq

/-- The body length of LSETUP is 1 to 16,383; zero is no length (R721). -/
def lenOk (o : IOps) : Bool := decide (o.imm ≠ 0)
/-- A count operand: FIX or RAW (R106, R110). -/
def countOf (w : Word) (limit : Nat) : M Nat := do
  need (decide (w.type = 0x01) || decide (w.tag = 0)) { cause := cType }
  need (decide (w.dat.toNat ≤ limit)) { cause := cIllegal }
  pure w.dat.toNat

/-- Push a loop level (R106) (DEDUCED, log 18). -/
def HartSt.pushLoop (x : HartSt) (last : Datum) (n : Nat) : HartSt :=
  let d := x.ldepth
  let x := (x.putSpr (0x040 + d) x.nextPc).putSpr (0x044 + d) last
  let x := x.putSpr (0x048 + d) (dat ((x.spilled + x.resident) % 2 ^ 17 * 2 ^ 32 + n))
  x.putSpr 0x000 (setFld x.pstate 6 4 (d + 1))

/-- LSETUP (R106). -/
def bodyLsetup (h : Hart) (o : IOps) : M Flow := do
  zeroField o.rd
  specsOk [o.rs]
  need (lenOk o) { cause := cIllegal }
  let n ← countOf (← src h o.rs) 0xFFFFFFFF
  let x ← hartM h
  need (decide (x.ldepth < 4)) { cause := cIllegal }
  let last := pcForm (x.pc + zx o * 4)
  if n = 0 then pure (.jump (last + 4))
  else do
    modM h (fun x => x.pushLoop last n)
    pure .seq

/-- BR (R148). -/
def insnBr (h : Hart) (cond : BitVec 4) (disp : BitVec 22) : Insn := { code := encB 0x30 cond disp, body := bodyBr h cond disp }
def execBr (h : Hart) (cond : BitVec 4) (disp : BitVec 22) (s : State) : Res := runs h (insnBr h cond disp) s

/-- The shadow push of a call at U (R664). -/
def touchCall (h : Hart) (c : Chip) : List Touch :=
  let x := c.hart h
  if x.shadow then [{ a := x.sprD 0x005 - 8, ld := false, st := true }] else []
/-- The shadow compare of a return at U (R664). -/
def touchRet (h : Hart) (c : Chip) : List Touch :=
  let x := c.hart h
  if x.shadow then [{ a := x.sprD 0x005 }] else []

/-- CALL (R179). -/
def insnCall (h : Hart) (cond : BitVec 4) (disp : BitVec 22) : Insn :=
  { code := encB 0x31 cond disp, touch := touchCall h, body := bodyCall h cond disp }
def execCall (h : Hart) (cond : BitVec 4) (disp : BitVec 22) (s : State) : Res := runs h (insnCall h cond disp) s
/-- CALL by register (R179). -/
def insnCallReg (h : Hart) (o : AOps) : Insn := { code := encA 0x03 0x10 o, touch := touchCall h, body := bodyCallReg h o }
def execCallReg (h : Hart) (o : AOps) (s : State) : Res := runs h (insnCallReg h o) s
/-- RET (R179). -/
def insnRet (h : Hart) (o : AOps) : Insn := { code := encA 0x03 0x11 o, touch := touchRet h, body := bodyRet h o }
def execRet (h : Hart) (o : AOps) (s : State) : Res := runs h (insnRet h o) s
/-- JMPL (R179). -/
def insnJmpl (h : Hart) (o : IOps) : Insn := { code := encI 0x32 o, body := bodyJmpl h o }
def execJmpl (h : Hart) (o : IOps) (s : State) : Res := runs h (insnJmpl h o) s
/-- TRAP (R268). -/
def insnTrap (o : IOps) : Insn := { code := encI 0x14 o, body := bodyTrap o }
def execTrap (h : Hart) (o : IOps) (s : State) : Res := runs h (insnTrap o) s
/-- SYSCALL (R298). -/
def insnSyscall (h : Hart) (o : AOps) : Insn := { code := encA 0x03 0x12 o, body := bodySyscall h o }
def execSyscall (h : Hart) (o : AOps) (s : State) : Res := runs h (insnSyscall h o) s
/-- SYSRET (R299). -/
def insnSysret (h : Hart) (o : AOps) : Insn := { code := encA 0x03 0x13 o, body := bodySysret h o }
def execSysret (h : Hart) (o : AOps) (s : State) : Res := runs h (insnSysret h o) s
/-- ERET (R289). -/
def insnEret (h : Hart) (o : AOps) : Insn := { code := encA 0x03 0x14 o, body := bodyEret h o }
def execEret (h : Hart) (o : AOps) (s : State) : Res := runs h (insnEret h o) s
/-- WFI (R181). -/
def insnWfi (h : Hart) (o : AOps) : Insn := { code := encA 0x03 0x15 o, body := bodyWfi h o }
def execWfi (h : Hart) (o : AOps) (s : State) : Res := runs h (insnWfi h o) s
/-- WAITT (R180). -/
def insnWaitt (h : Hart) (o : AOps) : Insn := { code := encA 0x03 0x16 o, body := bodyWaitt h o }
def execWaitt (h : Hart) (o : AOps) (s : State) : Res := runs h (insnWaitt h o) s
/-- LSETUP (R106). -/
def insnLsetup (h : Hart) (o : IOps) : Insn := { code := encI 0x12 o, body := bodyLsetup h o }
def execLsetup (h : Hart) (o : IOps) (s : State) : Res := runs h (insnLsetup h o) s

/-- A waiting WAITT ends (R180): at its target with Z := 1, or early, by an interrupt pending with IE = 0, with Z := 0
(DEDUCED, log 41). -/
def Chip.waittEnd (c : Chip) (h : Hart) : Chip :=
  let x := c.hart h
  match x.run with
  | .waitt t =>
    let now := reached (c.time.counter.extractLsb' 16 64) t
    if c.hartDom h = .on && c.coreOk h && (now || (!x.ie && decide (c.intPend h ≠ 0))) && (c.acceptable h).isNone && !c.haltDue h then
      (c.modHart h (fun x => { x with run := .run })).resume h (setCond h (condBool now))
    else c
  | _ => c
/-- WAITT_COMPLETE (R180). -/
def execWaittComplete (h : Hart) (s : State) : Res := done s (s.chip.waittEnd h)

end Sys2Proof.Machine
end

