-- ==== Sys2Proof/Machine/Context.lean ====
section
/-! DEFINITION. Context save and restore (R114–R130). -/
namespace Sys2Proof.Machine

/-- On a synchronous trap an instruction has changed no register, nor where a pending group loads from; the memory effects of its
commit points stand (R127, R129, R236, R267). -/
def keepRegs {α : Type} (h : Hart) (m : M α) : M α := do
  let x ← hartM h
  tryCatch m (fun e => do
    modM h (fun y => { y with regs := x.regs, bad := x.bad, spr := x.spr, tram := x.tram, lazyL := x.lazyL, lazyU := x.lazyU })
    throw e)

/-- The checks of the five context instructions (R114), their fields decoded (DEDUCED, log 19). -/
def contextOk (h : Hart) : M Unit := do
  need (decide ((← hartM h).tub = [])) { cause := cIllegal }
/-- A save area's address (R116). -/
def areaOk (a : Datum) : M Unit := need (decide (a.toNat % 64 = 0)) { cause := cAlign, addr := a }

/-- The address of a spill slot (R97, R98). WIN_SPILL_BASE is checked where the address is formed, at the read of its port, and the
address itself must be in local form too (DESIGN CHOICE, log 73). -/
def slotAddr (h : Hart) (n : Nat) : M Datum := do
  let b := (← hartM h).sprD 0x04F
  let a := b + dat (256 * n)
  need (decide (b.toNat % 64 = 0)) { cause := cAlign, addr := a, access := 9 }
  need (localForm b && localForm a) { cause := cTagInvalid, addr := a, access := 9 }
  pure a
/-- Word 25 of slot n (R97): the address of the slot below, or 0. -/
def slotLink (h : Hart) (n : Nat) : M Word := do
  if n = 0 then pure (wFrame 0) else pure (wFrame (← slotAddr h (n - 1)))

/-- Store a word of a save area or slot, POISON carried (R79). -/
def putArea (h : Hart) (kind : Nat) (a : Datum) (w : Word) : M Unit := storeWord h a w kind .other .poison
/-- Load a word of a save area at once, POISON carried (R79). -/
def getArea (h : Hart) (a : Datum) : M Word := loadWord h a 2 .other true
/-- A control word of a save area; where it is poisoned it has no stated value. -/
def getCtl (h : Hart) (a : Datum) : M Datum := do
  let w ← getArea h a
  if isPoison w then do
    let c ← get
    set c.tick
    pure (Config.freeDatum c.fresh)
  else pure w.dat

/-- Spill the oldest resident window, as WIN_SPILLED moves WIN_PTR (R97, R101, R117). -/
def spillOne (h : Hart) : M Unit := do
  let x ← hartM h
  need (decide (x.spilled ≠ fld (x.sprD 0x006) 15 0)) { cause := cIllegal }
  let a ← slotAddr h x.spilled
  let link ← slotLink h x.spilled
  let w := x.oldest
  (List.range 24).forM (fun i => do
    let v ← readPreg h (24 * w + i)
    putArea h 9 (a + dat (8 * i)) v)
  let l ← readPreg h (400 + w)
  putArea h 9 (a + 192) l
  putArea h 9 (a + 200) link
  modM h (fun x => ((x.setWin x.cwp (x.resident - 1) (x.spilled + 1)).dirty (some 6)).dirty (some 7))
/-- Spill n windows, oldest first. -/
def spillMany (h : Hart) (n : Nat) : M Unit := (List.range n).forM (fun _ => spillOne h)

/-- The word of a group's register as a save reads it: a stale pointer is healed in place (R453). -/
def savedWord (h : Hart) (i : Nat) : M Word := do
  let c ← get
  let w := (c.hart h).groupGet i
  if c.stale (c.hart h) w then do
    let v ← healFor h w
    modM h (fun x => x.groupPut i v)
    pure v
  else pure w
/-- Write a group to a save area (R116). -/
def saveGroup (h : Hart) (area : Datum) (g : Nat) : M Unit := do
  lazyLoad h g
  (groupRegs (← hartM h).cwp g).zipIdx.forM (fun e => do
    let w ← savedWord h e.1
    putArea h 3 (area + dat (8 * (8 + 8 * g + e.2))) w)
/-- The groups of a half: the upper 2–7, the lower 0, 1 and 8–15 (R115). -/
def upperGroups : List Nat := [2, 3, 4, 5, 6, 7]
def lowerGroups : List Nat := [0, 1, 8, 9, 10, 11, 12, 13, 14, 15]
/-- The groups whose DIRTY bit is 1. -/
def HartSt.dirtyOf (x : HartSt) (gs : List Nat) : List Nat := gs.filter (fun g => bit (x.sprD 0x081) g)
/-- Clear DIRTY and PENDING bits of groups. -/
def HartSt.clean (x : HartSt) (gs : List Nat) (shift : Nat) : HartSt :=
  x.setSpr 0x081 (gs.foldl (fun d g => setFld d (g + shift) (g + shift) 0) (x.sprD 0x081))
/-- Set the PRESENT bits of groups and write the reserved words (R116, R117, R118). -/
def markPresent (h : Hart) (area : Datum) (gs : List Nat) : M Unit := do
  let p ← getCtl h (area + 8)
  putArea h 3 (area + 8) (.raw (gs.foldl (fun d g => d ||| dat (2 ^ g)) p))
  (List.range 5).forM (fun i => putArea h 3 (area + dat (8 * (3 + i))) (.raw 0))
  modM h (fun x => x.clean gs 0)

/-- SAVEU on an area (R117) (DEDUCED, log 19). -/
def saveUpper (h : Hart) (area : Datum) : M Unit := do
  spillMany h ((← hartM h).resident - 1)
  let x ← hartM h
  let gs := x.dirtyOf upperGroups
  gs.forM (saveGroup h area)
  putArea h 3 (area + 16) (.raw (dat (x.ldepth + 8 * b2n x.repa)))
  markPresent h area gs
/-- SAVEL on an area (R118) (DEDUCED, log 19). -/
def saveLower (h : Hart) (area : Datum) : M Unit := do
  let gs := (← hartM h).dirtyOf lowerGroups
  gs.forM (saveGroup h area)
  markPresent h area gs

/-- The first k of the spills and group writes of a save, as an event accepted at a commit point leaves them (R129). -/
def savePart (h : Hart) (area : Datum) (fn k : Nat) : M Unit := do
  let x ← hartM h
  let n := if fn = 0x18 ∨ fn = 0x19 then x.resident - 1 else 0
  spillMany h (min k n)
  let x ← hartM h
  let gs := (if fn = 0x18 ∨ fn = 0x19 then x.dirtyOf upperGroups else []) ++
    (if fn = 0x18 ∨ fn = 0x1A then x.dirtyOf lowerGroups else [])
  (gs.take (k - n)).forM (saveGroup h area)

/-- The words of a group in an area; RAW zero where PRESENT is 0 (R121). -/
def groupWords (h : Hart) (area present : Datum) (g : Nat) : M (List Word) :=
  (List.range 8).mapM (fun i =>
    if bit present g then getArea h (area + dat (8 * (8 + 8 * g + i))) else pure (.raw 0))
/-- A word that a register reading as RAW takes; a poisoned one gives it no stated value (R79). -/
def plainWord (i : Nat) (w : Word) : M Word := do
  if isPoison w && decide (i ≥ 1000) && !wholeWordSpr (i - 1000) && decide (i ≠ 1000 + 0x4D) then do
    need (decide (i ≠ 1001) && decide (i ≠ 1002)) { cause := cPoison }
    let c ← get
    set c.tick
    pure (.raw (Config.freeDatum c.fresh))
  else pure w
/-- Set the registers of a group. -/
def putGroup (h : Hart) (g : Nat) (ws : List Word) (skip : Nat → Bool) : M Unit := do
  ((groupRegs (← hartM h).cwp g).zip ws).forM (fun e => do
    if skip e.1 then pure ()
    else do
      let w ← plainWord e.1 e.2
      modM h (fun x => x.groupPut e.1 w))
/-- Mark groups pending on an area, or give them RAW zero where PRESENT is 0 (R119, R121). -/
def markPending (h : Hart) (present : Datum) (gs : List Nat) : M Unit :=
  gs.forM (fun g => modM h (fun x =>
    if bit present g then x.setSpr 0x081 (x.sprD 0x081 ||| dat (2 ^ (16 + g)))
    else (groupRegs x.cwp g).foldl (fun x i => x.groupPut i (.raw 0)) x))

/-- RSTRU from an area (R119, R121, R127) (DEDUCED, log 19). -/
def restoreUpper (h : Hart) (area : Datum) : M Unit := do
  let present ← getCtl h (area + 8)
  let hdr ← getCtl h (area + 16)
  let g6 ← groupWords h area present 6
  let g7 ← groupWords h area present 7
  let win ← (do
    let w ← plainWord (1000 + 0x4E) ((g7[6]?).getD (.raw 0))
    pure (if bit present 7 then sprHeld 0x04E w.dat else 0x100) : M Datum)
  need (decide (fld win 12 8 = 1)) { cause := cIllegal }
  need (decide (fld hdr 2 0 ≤ 4)) { cause := cIllegal }
  let x0 ← hartM h
  let cwp := fld win 3 0
  modM h (fun x =>
    let x := x.clean upperGroups 16
    let x := { (x.setSpr 0x04E win) with lazyU := ⟨area, x0.regime⟩ }
    let keep := groupRegs cwp 2 ++ groupRegs cwp 3 ++ groupRegs cwp 4 ++ groupRegs cwp 5
    let ring := (List.range 384).filter (fun i => !keep.contains i)
    (ring ++ (List.range 16).map (fun i => 400 + i)).foldl (fun x i => x.setPreg i (.raw 0)) x)
  putGroup h 6 g6 (fun _ => false)
  putGroup h 7 g7 (fun i => decide (i = 1000 + 0x4E))
  modM h (fun x => x.setSpr 0x000 (setFld (setFld x.pstate 6 4 (fld hdr 2 0)) 7 7 (fld hdr 3 3)))
  markPending h present [2, 3, 4, 5]
  modM h (fun x => x.clean upperGroups 0)

/-- RSTRL from an area (R120, R121, R127) (DEDUCED, log 19). -/
def restoreLower (h : Hart) (area : Datum) : M Unit := do
  let present ← getCtl h (area + 8)
  let g8 ← groupWords h area present 8
  let r := (← hartM h).regime
  putGroup h 8 g8 (fun i => decide (i = 1000))
  modM h (fun x => { (x.clean lowerGroups 16) with lazyL := ⟨area, r⟩ })
  markPending h present [0, 1, 9, 10, 11, 12, 13, 14, 15]
  modM h (fun x => x.clean lowerGroups 0)

/-- SAVEU, SAVEL, RSTRU or RSTRL: the fields, the privilege, the checks, then the act on the area at CTX_LINK. -/
def bodyContext (h : Hart) (o : AOps) (serial : Bool) (act : Datum → M Unit) : M Flow := do
  zeroField o.rd
  zeroField o.rs
  zeroField o.rt
  needPriv h 1
  contextOk h
  let area := (← hartM h).sprD 0x080
  areaOk area
  if serial then serialise h else pure ()
  keepRegs h (act area)
  pure .seq

/-- A context-change record (R666) (DEDUCED, log 21). -/
def traceContext (h : Hart) : M Unit := do
  let x ← hartM h
  modify (fun c => c.trace h 4 (x.sprD 0x007) (x.sprD 0x110) (x.sprD 0x080))

/-- CTXSW (R122): rs is read before the landings that serialising waits for (DESIGN CHOICE, log 77). -/
def bodyCtxsw (h : Hart) (o : AOps) : M Flow := do
  zeroField o.rd
  zeroField o.rt
  specsOk [o.rs]
  needPriv h 1
  let target ← rawOf (← src h o.rs)
  contextOk h
  let area := (← hartM h).sprD 0x080
  areaOk area
  serialise h
  keepRegs h (do
    saveUpper h area
    saveLower h area
    let new ← (if o.rs = 48 then getCtl h area else pure target)
    areaOk new
    modM h (fun x => x.setSpr 0x080 new)
    restoreLower h new
    restoreUpper h new)
  traceContext h
  pure .seq

/-- The words a save writes (R664). -/
def touchSave (h : Hart) (up lo : Bool) (c : Chip) : List Touch :=
  let x := c.hart h
  let a := x.sprD 0x080
  let gs := (if up then x.dirtyOf upperGroups else []) ++ (if lo then x.dirtyOf lowerGroups else [])
  let slots := if up then (List.range (x.resident - 1)).map (fun i =>
    ({ a := x.sprD 0x04F + dat (256 * (x.spilled + i)), n := 26, ld := false, st := true } : Touch)) else []
  slots ++ gs.map (fun g => ({ a := a + dat (64 + 64 * g), n := 8, ld := false, st := true } : Touch)) ++
    [{ a := a + 8, ld := true, st := true }, { a := a + (if up then 16 else 24), n := if up then 6 else 5, ld := false, st := true }]
/-- The words a restore reads at once (R664). -/
def touchRestore (h : Hart) (up : Bool) (c : Chip) : List Touch :=
  let a := (c.hart h).sprD 0x080
  if up then [{ a := a + 8, n := 2 }, { a := a + 448, n := 16 }] else [{ a := a + 8 }, { a := a + 576, n := 8 }]
/-- The words CTXSW accesses (R122, R664). -/
def touchCtxsw (h : Hart) (o : AOps) (c : Chip) : List Touch :=
  let x := c.hart h
  let new := if o.rs = 48 then (match (getArea h (x.sprD 0x080)) c with | .ok w _ => w.dat | .error _ _ => 0)
    else (x.look o.rs).dat
  let d : Chip := c.setHart h (x.setSpr 0x080 new)
  touchSave h true true c ++ touchRestore h true d ++ touchRestore h false d

/-- SAVEU (R117). -/
def insnSaveu (h : Hart) (o : AOps) : Insn := { code := encA 0x03 0x19 o, touch := touchSave h true false, body := bodyContext h o false (saveUpper h) }
def execSaveu (h : Hart) (o : AOps) (s : State) : Res := runs h (insnSaveu h o) s
/-- SAVEL (R118). -/
def insnSavel (h : Hart) (o : AOps) : Insn := { code := encA 0x03 0x1A o, touch := touchSave h false true, body := bodyContext h o false (saveLower h) }
def execSavel (h : Hart) (o : AOps) (s : State) : Res := runs h (insnSavel h o) s
/-- RSTRU (R119). -/
def insnRstru (h : Hart) (o : AOps) : Insn := { code := encA 0x03 0x1B o, touch := touchRestore h true, body := bodyContext h o false (restoreUpper h) }
def execRstru (h : Hart) (o : AOps) (s : State) : Res := runs h (insnRstru h o) s
/-- RSTRL (R120). -/
def insnRstrl (h : Hart) (o : AOps) : Insn := { code := encA 0x03 0x1C o, touch := touchRestore h false, body := bodyContext h o true (restoreLower h) }
def execRstrl (h : Hart) (o : AOps) (s : State) : Res := runs h (insnRstrl h o) s
/-- CTXSW (R122). -/
def insnCtxsw (h : Hart) (o : AOps) : Insn := { code := encA 0x03 0x18 o, touch := touchCtxsw h o, body := bodyCtxsw h o }
def execCtxsw (h : Hart) (o : AOps) (s : State) : Res := runs h (insnCtxsw h o) s

end Sys2Proof.Machine
end

