-- ==== Sys2Proof/Machine/Spr.lean ====
section
/-! DEFINITION. Special registers as read and written (R131–R134), their checks, and the writes with an effect of their
own: CTX_LINK (R125), TIMER_CMP (R557), HOSTSIG (R578), TLBI (R343–R345), CAGE_OP (R498) and the rest. -/
namespace Sys2Proof.Machine

/-- The least privilege to read and to write a special register; none for an unassigned number, and no write for a
read-only one (R132 and the tables of the other chapters). -/
def sprPriv (n : Nat) : Option (Nat × Option Nat) :=
  if n = 0x000 then some (0, some 0)
  else if n ≤ 0x003 then some (0, some 0)
  else if n ≤ 0x005 then some (1, some 1)
  else if n = 0x006 then some (0, some 1)
  else if n ≤ 0x00C then some (1, some 1)
  else if n ≤ 0x010 then some (0, some 0)
  else if n ≤ 0x015 then some (0, some 1)
  else if 0x018 ≤ n ∧ n ≤ 0x01A then some (0, some 1)
  else if 0x040 ≤ n ∧ n ≤ 0x04B then some (0, some 0)
  else if n = 0x04C then some (0, some 1)
  else if n = 0x04D then some (0, some 0)
  else if n = 0x04E then some (0, some 1)
  else if n = 0x04F then some (1, some 1)
  else if n = 0x080 ∨ n = 0x081 then some (1, some 1)
  else if n = 0x082 ∨ n = 0x083 then some (3, some 3)
  else if n = 0x084 ∨ n = 0x085 then some (0, none)
  else if n = 0x100 then some (3, none)
  else if 0x101 ≤ n ∧ n ≤ 0x103 then some (3, some 3)
  else if n = 0x104 ∨ n = 0x105 then some (1, some 1)
  else if 0x110 ≤ n ∧ n ≤ 0x112 then some (3, some 3)
  else if n = 0x113 then some (3, none)
  else if n = 0x114 ∨ n = 0x118 then some (1, some 1)
  else if n = 0x119 ∨ n = 0x11A then some (1, none)
  else if n = 0x120 ∨ n = 0x121 then some (0, some 0)
  else if n = 0x122 then some (0, none)
  else if n = 0x123 then some (0, some 0)
  else if n = 0x130 then some (1, some 3)
  else if n = 0x131 then some (0, some 0)
  else if n = 0x132 then some (0, none)
  else if n = 0x133 ∨ n = 0x134 then some (1, some 1)
  else if 0x140 ≤ n ∧ n ≤ 0x146 then some (1, some 1)
  else none

/-- The bits of a special register a write sets; the others keep their value (R13). REP_COUNT has the 16 bits its counts need
(DESIGN CHOICE, log 82). -/
def sprMask (n : Nat) : Datum :=
  if n = 0x006 then 0xFFFF
  else if n = 0x007 then 0xFFFFFFFFFFFFF
  else if 0x00D ≤ n ∧ n ≤ 0x00F then 0x1F
  else if n = 0x010 then 0xFFFFFFFF
  else if n = 0x011 then 1
  else if n = 0x014 then 0
  else if n = 0x018 then 0x800000FFFFFFFFFF
  else if 0x040 ≤ n ∧ n ≤ 0x047 then 0xFFFFFFFFFFFFFFFC
  else if 0x048 ≤ n ∧ n ≤ 0x04B then 0x1FFFFFFFFFFFF
  else if n = 0x04C then 0xFFFF
  else if n = 0x04E then 0xFFFF00001F0F
  else if n = 0x104 then 1
  else if n = 0x105 then 0x7F
  else if n = 0x110 then 0xFFFFFFFFF0FFF
  else if n = 0x111 then 7
  else if n = 0x112 then 0xFFFFFFFFF0000
  else if n = 0x118 then 0x8000000000000001
  else if n = 0x131 then 0xFFFFFFFF
  else if 0x140 ≤ n ∧ n ≤ 0x143 then 0x807FFFFFFFFFFFFC
  else if n = 0x144 ∨ n = 0x145 then 0xE07FFFFFFFFFFFF8
  else if n = 0x146 then 3
  else 0xFFFFFFFFFFFFFFFF

/-- A number that may be read: assigned, at its privilege (R131). -/
def sprReadable (h : Hart) (n : Nat) : M Unit := do
  match sprPriv n with
  | some (p, _) => needPriv h p
  | none => raise { cause := cIllegal }
/-- A number that may be written: assigned, at its privilege, not read-only, in that order (R131, R143). -/
def sprWritable (h : Hart) (n : Nat) : M Unit := do
  match sprPriv n with
  | some (_, some p) => needPriv h p
  | some (p, none) => do
    needPriv h p
    raise { cause := cIllegal }
  | none => raise { cause := cIllegal }

/-- The value of a special register (R132): its group loaded, a stale pointer of LONG_A, LONG_B, BS0, BS1 and RLINK healed
in place (R453). -/
def sprValue (h : Hart) (n : Nat) : M Word := do
  match groupOfSpr n with
  | some g => lazyLoad h g
  | none => pure ()
  let c ← get
  let x := c.hart h
  if n = 0x001 then pure (.raw x.sp)
  else if n = 0x002 then pure (.raw x.tp)
  else if n = 0x04D then readPreg h (400 + x.cwp)
  else if n = 0x084 then pure (.raw ((c.goodOf x).zeroExtend 64))
  else if n = 0x085 then pure (.raw (h.zeroExtend 64))
  else if n = 0x104 then pure (.raw (dat (c.intPend h)))
  else if n = 0x114 ∨ n = 0x121 ∨ n = 0x134 then pure (.raw 0)
  else if n = 0x132 then pure (.raw c.now)
  else if n = 0x012 ∨ n = 0x013 ∨ n = 0x019 ∨ n = 0x01A then do
    let w := x.sprW n
    if c.stale x w then do
      let v ← healFor h w
      modM h (fun x => (x.setSprW n v).dirty (groupOfSpr n))
      pure v
    else pure w
  else pure (x.sprW n)

/-- RDSPR of a number (R131, R501): CAGE_RES waits for a result that is owed. -/
def readSpr (h : Hart) (n : Nat) : M Word := do
  sprReadable h n
  if n = 0x122 && bit ((← hartM h).sprD 0x123) 0 then throw .wait else sprValue h n

/-- Write PSTATE (R99, R108, R131, R133). -/
def writePstate (h : Hart) (d : Datum) : M Unit := do
  let x ← hartM h
  let p := x.pstate
  let ld := fld d 6 4
  if x.priv = 0 then
    need (decide (fld d 3 0 = fld p 3 0) && decide (ld ≤ x.ldepth)) { cause := cPrivilege }
  else need (decide (fld d 1 0 ≠ 2) && decide (fld d 1 0 ≤ x.priv)) { cause := cPrivilege }
  need (decide (ld ≤ 4)) { cause := cIllegal }
  modM h (fun x => x.putSpr 0x000 (setFld p 6 0 (fld d 6 0)))

/-- The translations a TLBI operation drops (R344): of VMID `vm`, ASID and page as the write names them. -/
def tlbiDrops (d vm : Datum) (t : TlbEntry) : Bool :=
  let op := fld d 47 44
  let page := fld d 38 0
  let mine := !t.hreg && decide (t.vmid = vm.extractLsb' 0 12)
  let size := fun (l : Option Datum) => match l with
    | some e => if contig e = 1 then 16 else if contig e = 2 then 512 else 1
    | none => 1
  let n := max (size t.leaf1) (size t.leaf2)
  let covers := decide (t.page / n = page / n)
  let asid := decide (t.asid.toNat = fld d 63 48)
  if op = 0 then mine && covers && (asid || t.glob)
  else if op = 1 then mine && covers
  else if op = 2 then mine && asid && !t.glob
  else if op = 3 then mine && t.leaf1.isSome
  else if op = 4 then mine && t.leaf2.isSome && (t.leaf1.isSome || covers)
  else if op = 5 then mine
  else if op = 6 then t.hreg && covers
  else if op = 7 then t.hreg
  else true

/-- The harts a TLBI operation concerns: of the issuing core or, broadcast, of every core; of the VMID, or at H (R345). -/
def Chip.tlbiScope (c : Chip) (h : Hart) (d : Datum) (g : Hart) : Bool :=
  (bit d 43 || decide (coreOf g = coreOf h)) &&
    (decide (fld d 47 44 ≥ 6) || decide ((c.hart g).vmid = (c.hart h).vmid))

/-- The cached table entries a TLBI operation drops (R344): those of its scope, for operations 0, 1 and 6 on the path of PAGE; and
for operation 4 every entry of the partition that stage 2 made. -/
def tableDrops (d vm : Datum) (t : TableEntry) : Bool :=
  let op := fld d 47 44
  let mine := !t.hreg && decide (t.vmid = vm.extractLsb' 0 12)
  let path := decide (t.stage = 1) && decide (t.pre = fld d 38 0 / 2 ^ (26 - 13 * t.level))
  let asid := decide (t.asid.toNat = fld d 63 48)
  if op = 0 then mine && path && asid
  else if op = 1 then mine && path
  else if op = 2 then mine && decide (t.stage = 1) && asid
  else if op = 3 then mine && decide (t.stage = 1)
  else if op = 4 then mine && t.xlat.getLsbD 1
  else if op = 5 then mine
  else if op = 6 then t.hreg && path
  else if op = 7 then t.hreg
  else true

/-- An access that may use a dropped translation is outstanding: a tub load, a load sent to the host window, a Stope
operation (R345, R436). -/
def Chip.tlbiBusy (c : Chip) (h : Hart) (d : Datum) : Bool :=
  (c.harts.any (fun e => c.tlbiScope h d (BitVec.ofNat 11 e.1) &&
    e.2.tub.any (fun t => t.pa.isSome && decide (t.val = .waiting)))) ||
  c.pcie.loads.any (fun l => c.tlbiScope h d l.hart) ||
  c.stope.any (fun q => c.tlbiScope h d q.hart && q.result.isNone)

/-- The drops of a TLBI: the core's entries, or every core's and every Stope unit's (R344, R436). -/
def Chip.tlbi (c : Chip) (h : Hart) (d : Datum) : Chip :=
  let vm := (c.hart h).sprD 0x110
  let c := (c.sb.filter (fun e => c.tlbiScope h d e.hart)).foldl Chip.acceptEntry c
  let owns := fun (o : Nat) => bit d 43 || decide (o = (coreOf h).toNat)
  { c with tlb := c.tlb.filter (fun t => !(owns t.owner && tlbiDrops d vm t))
           tables := c.tables.filter (fun t => !(owns t.owner && tableDrops d vm t)) }

/-- Write TLBI (R343–R345) (DEDUCED, log 22). -/
def writeTlbi (h : Hart) (d : Datum) : M Unit := do
  let op := fld d 47 44
  need (!(decide (4 ≤ op) && decide (op ≤ 8)) || decide ((← hartM h).priv = 3)) { cause := cPrivilege }
  need (decide (op ≤ 8) && decide (fld d 42 39 = 0) && (decide (op ≠ 4) || decide (fld d 38 36 = 0))) { cause := cIllegal }
  let c ← get
  if c.tlbiBusy h d then throw .wait else set (c.tlbi h d)

/-- Write CAGE_OP (R498, R504, R505) (DEDUCED, log 22). -/
def writeCageOp (h : Hart) (d : Datum) : M Flow := do
  let kind := fld d 5 4
  let g := fld d 3 0
  need (decide (fld d 63 6 = 0) && decide (kind < 2)) { cause := cIllegal }
  let c ← get
  let x := c.hart h
  need (kind = 0 || decide (x.priv ≠ 0)) { cause := cPrivilege }
  let cfg := c.reg (grpAt g)
  need (bit cfg 63 && decide (fld cfg 27 16 = x.vmid.toNat) && c.member g h) { cause := cIllegal }
  need (kind = 1 || !bit (x.sprD 0x123) 0) { cause := cIllegal }
  let m : CageMsg := ⟨BitVec.ofNat 2 kind, BitVec.ofNat 4 g, h, x.sprD 0x120⟩
  if kind = 0 then modM h (fun x => x.setSpr 0x123 (setFld (setFld (x.sprD 0x123) 7 4 g) 0 0 1)) else pure ()
  let c ← get
  if c.hasToken h.toNat then do
    set (c.inject m)
    pure .seq
  else do
    set (c.hold m)
    pure (.issued .cage)

/-- The thread takes the view of the context that collects its new partition (R443). -/
def Chip.newVmid (c : Chip) (h : Hart) : Chip :=
  match c.ctxOf (c.hart h).vmid with
  | some k => c.modHart h (fun x => { x with epoch := BitVec.ofNat 16 (c.ctxEpoch k), good := c.ctxGood k })
  | none => c

/-- A write that is serialising (R134, R325) (DEDUCED, log 22). -/
def serialSpr (n : Nat) : Bool := [0x000, 0x04E, 0x007, 0x080, 0x110, 0x111, 0x112, 0x114].contains n

/-- The act of a permitted WRSPR of a word (R131, R132) (DEDUCED, log 20). -/
def sprAct (h : Hart) (n : Nat) (w : Word) : M Flow := do
  let d := w.dat
  if n = 0x000 then do
    writePstate h d
    pure .seq
  else if n = 0x001 ∨ n = 0x002 then do
    modM h (fun x => x.putPreg (415 + n) w)
    pure .seq
  else if n = 0x04D ∨ wholeWordSpr n then do
    need ((← get).producible w) { cause := cTagInvalid }
    if n = 0x04D then modM h (fun x => x.putPreg (400 + x.cwp) w)
    else do
      match groupOfSpr n with
      | some g => lazyLoad h g
      | none => pure ()
      modM h (fun x => (x.setSprW n w).dirty (groupOfSpr n))
    pure .seq
  else if n = 0x04E then do
    need (decide (1 ≤ fld d 12 8) && decide (fld d 12 8 ≤ 15)) { cause := cIllegal }
    lazyWindow h
    setSprM h n (d &&& sprMask n)
    modM h (fun x => x.setSpr 0x081 (x.sprD 0x081 ||| 0xFC))
    pure .seq
  else if n = 0x080 then do
    lazyAll h
    modM h (fun x => (x.setSpr n d).setSpr 0x081 (x.sprD 0x081 ||| 0xFFFF))
    modify (fun c => c.trace h 4 ((c.hart h).sprD 0x007) ((c.hart h).sprD 0x110) d)
    pure .seq
  else if n = 0x081 then do
    modM h (fun x => x.setSpr n (x.sprD n ||| (d &&& 0xFFFF)))
    pure .seq
  else if n = 0x114 then do
    writeTlbi h d
    pure .seq
  else if n = 0x121 then writeCageOp h d
  else if n = 0x123 then do
    modM h (fun x => if bit d 2 then x.setSpr n (setFld (x.sprD n) 2 2 0) else x)
    pure .seq
  else if n = 0x130 then do
    let old := (← hartM h).sprD n
    if fld d 63 48 ≠ fld old 63 48 then modify (fun c => c.msgRole h d)
    else modM h (fun x => x.setSpr n (setFld d 43 40 0))
    pure .seq
  else if n = 0x133 then do
    modM h (fun x => { x.setSpr n d with timerArmed := true })
    pure .seq
  else if n = 0x134 then do
    need (decide (d.toNat < 2048)) { cause := cIllegal }
    modify (fun c => c.msix d.toNat)
    pure .seq
  else do
    let old ← sprM h n
    let v := (old &&& ~~~(sprMask n)) ||| (d &&& sprMask n)
    setSprM h n (if 0x040 ≤ n ∧ n ≤ 0x047 then pcForm v else v)
    if n = 0x110 && decide (fld d 11 0 ≠ fld old 11 0) then modify (fun c => c.newVmid h) else pure ()
    if n = 0x007 ∨ n = 0x110 then traceContext h else pure ()
    pure .seq

/-- WRSPR of a word to a number (R131, R134). -/
def writeSpr (h : Hart) (n : Nat) (w : Word) : M Flow := do
  sprWritable h n
  if serialSpr n then serialise h else pure ()
  sprAct h n w

/-- The fields of RDSPR and WRSPR: the number, with imm14[13:12] zero (R138, R140). -/
def numberOf (o : IOps) : M Nat := do
  need (decide (o.imm.toNat < 2 ^ 12)) { cause := cReserved }
  pure o.imm.toNat

/-- RDSPR (R131): a register that holds a poisoned or ill-formed word delivers none (R55, R79). -/
def bodyRdspr (h : Hart) (o : IOps) : M Flow := do
  zeroField o.rs
  let n ← numberOf o
  specsOk [o.rd]
  let w ← readSpr h n
  need (!isPoison w) { cause := cPoison }
  need ((← get).wellFormed w) { cause := cTagInvalid }
  writeSpec h o.rd w
  pure .seq
/-- WRSPR (R131): the register's privilege, then the source, read before the landings that a serialising write waits for
(DESIGN CHOICE, log 77). -/
def bodyWrspr (h : Hart) (o : IOps) : M Flow := do
  zeroField o.rd
  let n ← numberOf o
  specsOk [o.rs]
  sprWritable h n
  let w ← src h o.rs
  writeSpr h n w

/-- RDSPR (R131). -/
def insnRdspr (h : Hart) (o : IOps) : Insn := { code := encI 0x10 o, body := bodyRdspr h o }
def execRdspr (h : Hart) (o : IOps) (s : State) : Res := runs h (insnRdspr h o) s
/-- WRSPR (R131). -/
def insnWrspr (h : Hart) (o : IOps) : Insn := { code := encI 0x11 o, body := bodyWrspr h o }
def execWrspr (h : Hart) (o : IOps) (s : State) : Res := runs h (insnWrspr h o) s

/-- WRSPR of a register to a number, for a row that names one write: nothing happens where the value is not the row's. -/
def sprRow (h : Hart) (rs : BitVec 6) (n : Nat) (kind : Datum → Bool) (s : State) : Res :=
  if kind ((s.chip.hart h).look rs).dat then runs h (insnWrspr h ⟨0, rs, BitVec.ofNat 14 n⟩) s else done s s.chip
/-- CTX_LINK_WRITE (R125). -/
def execCtxLinkWrite (h : Hart) (rs : BitVec 6) (s : State) : Res := sprRow h rs 0x080 (fun _ => true) s
/-- TIMER_CMP_ARM (R557). -/
def execTimerCmpArm (h : Hart) (rs : BitVec 6) (s : State) : Res := sprRow h rs 0x133 (fun _ => true) s
/-- HOSTSIG (R578). -/
def execHostsig (h : Hart) (rs : BitVec 6) (s : State) : Res := sprRow h rs 0x134 (fun _ => true) s
/-- SOFT_INTERRUPT_SET (R314). -/
def execSoftInterruptSet (h : Hart) (rs : BitVec 6) (s : State) : Res := sprRow h rs 0x104 (fun d => bit d 0) s
/-- A write of TLBI that names an operation (R344). -/
def tlbiRow (op : Nat) (h : Hart) (rs : BitVec 6) (s : State) : Res := sprRow h rs 0x114 (fun d => decide (fld d 47 44 = op)) s
/-- TLBI_VA_ASID (R344). -/
def execTlbiVaAsid (h : Hart) (rs : BitVec 6) (s : State) : Res := tlbiRow 0 h rs s
/-- TLBI_VA_ALL_ASID (R344). -/
def execTlbiVaAllAsid (h : Hart) (rs : BitVec 6) (s : State) : Res := tlbiRow 1 h rs s
/-- TLBI_ASID (R344). -/
def execTlbiAsid (h : Hart) (rs : BitVec 6) (s : State) : Res := tlbiRow 2 h rs s
/-- TLBI_STAGE1 (R344). -/
def execTlbiStage1 (h : Hart) (rs : BitVec 6) (s : State) : Res := tlbiRow 3 h rs s
/-- TLBI_IPA (R344). -/
def execTlbiIpa (h : Hart) (rs : BitVec 6) (s : State) : Res := tlbiRow 4 h rs s
/-- TLBI_VMID (R344). -/
def execTlbiVmid (h : Hart) (rs : BitVec 6) (s : State) : Res := tlbiRow 5 h rs s
/-- TLBI_H_VA (R344). -/
def execTlbiHVa (h : Hart) (rs : BitVec 6) (s : State) : Res := tlbiRow 6 h rs s
/-- TLBI_H_ALL (R344). -/
def execTlbiHAll (h : Hart) (rs : BitVec 6) (s : State) : Res := tlbiRow 7 h rs s
/-- TLBI_ALL (R344). -/
def execTlbiAll (h : Hart) (rs : BitVec 6) (s : State) : Res := tlbiRow 8 h rs s
/-- ARRIVE (R498). -/
def execArrive (h : Hart) (rs : BitVec 6) (s : State) : Res := sprRow h rs 0x121 (fun d => decide (fld d 5 4 = 0)) s
/-- ALERT (R502). -/
def execAlert (h : Hart) (rs : BitVec 6) (s : State) : Res := sprRow h rs 0x121 (fun d => decide (fld d 5 4 = 1)) s

/-- A thread's armed timer compare reaches its target (R557). -/
def Chip.timerExpiry (c : Chip) (h : Hart) : Chip :=
  let x := c.hart h
  if x.timerArmed && reached c.now (x.sprD 0x133) then
    c.modHart h (fun x => { x.setSpr 0x104 (setFld (x.sprD 0x104) 2 2 1) with timerArmed := false })
  else c
/-- TIMER_CMP_EXPIRY (R557). -/
def execTimerCmpExpiry (h : Hart) (s : State) : Res := done s (s.chip.timerExpiry h)

end Sys2Proof.Machine
end

