-- ==== Sys2Proof/Machine/Tram.lean ====
section
/-! DEFINITION. Tram instructions (R99–R104): the ports as read and written, and the two forms. -/
namespace Sys2Proof.Machine

/-- Ports that may be read (R101). -/
def portReads (p : Nat) : Bool :=
  decide (p < 0x034) || [0x100, 0x101, 0x102, 0x110, 0x111, 0x120, 0x121, 0x130, 0x131, 0x140, 0x141, 0x142, 0x150, 0x151,
    0x152, 0x153, 0x154, 0x155, 0x156, 0x160, 0xFFF].contains p
/-- Ports that may be written (R101). -/
def portWrites (p : Nat) : Bool :=
  decide (p < 0x034) || [0x100, 0x101, 0x102, 0x110, 0x112, 0x120, 0x121, 0x130, 0x131, 0x140, 0x141, 0x153, 0x156, 0x157,
    0x158, 0x160, 0x161, 0x162, 0x163, 0x170, 0xFFF].contains p
/-- Ports that use the datum written rather than move the word: POISON is consumed there (R79) (DEDUCED, log 23). -/
def portUses (p : Nat) : Bool :=
  [0x100, 0x110, 0x120, 0x121, 0x130, 0x131, 0x140, 0x141, 0x160, 0x161, 0x162, 0x163].contains p
/-- Ports whose word is read as an instruction's source register, where POISON traps; a PREG move and MLOAD carry it (R79, R102). -/
def portSource (p : Nat) : Bool := decide (p < 0x034) || decide (p = 0x131)
/-- Ports that write the word to a register: it must be well formed, or POISON carried (R55, R79). -/
def portStores (p : Nat) : Bool := decide (p < 0x034) || [0x101, 0x102, 0x153, 0x156].contains p

/-- Change the Tram latches. -/
def modTram (h : Hart) (f : Tram → Tram) : M Unit := modM h (fun x => { x with tram := f x.tram })
/-- PREG_IDX after a use of PREG_POST (R101). -/
def postIdx (h : Hart) : M Nat := do
  let i := (← hartM h).tram.pregIdx
  need (decide (i ≠ 415)) { cause := cIllegal }
  modTram h (fun t => { t with pregIdx := if i = 383 then 0 else i + 1 })
  pure i
/-- Write a physical register, its group loaded (R126). -/
def putPregM (h : Hart) (i : Nat) (w : Word) : M Unit := do
  lazyPreg h i
  modM h (fun x => x.putPreg i w)

/-- The word a port gives (R101, R102). -/
def portRead (h : Hart) (p : Nat) : M Word := do
  let x ← hartM h
  if p < 0x034 then readSpec h (BitVec.ofNat 6 p)
  else if p = 0x100 then pure (.raw (dat x.tram.pregIdx))
  else if p = 0x101 then readPreg h x.tram.pregIdx
  else if p = 0x102 then do
    let i ← postIdx h
    readPreg h i
  else if p = 0x110 then pure (.raw x.tram.maddr)
  else if p = 0x111 then do
    let w ← loadWord h x.tram.maddr 2 .word true
    modTram h (fun t => { t with maddr := t.maddr + 8 })
    pure w
  else if p = 0x120 then pure (.raw (x.tram.tagT.zeroExtend 64))
  else if p = 0x121 then do
    let w : Word := ⟨x.tram.tagT, x.tram.tagD⟩
    need ((← get).producible w) { cause := cTagInvalid }
    pure w
  else if p = 0x130 then pure (.raw x.tram.sprIdx)
  else if p = 0x131 then do
    need (decide (x.tram.sprIdx.toNat < 2 ^ 12)) { cause := cIllegal }
    readSpr h x.tram.sprIdx.toNat
  else if p = 0x140 then pure (.raw x.tram.cmpA)
  else if p = 0x141 then pure (.raw x.tram.cmpB)
  else if p = 0x142 then pure (.raw (dat (b2n x.tram.eq + 2 * b2n x.tram.lt)))
  else if p = 0x150 then pure (.raw (dat (24 * x.oldest)))
  else if p = 0x151 then do
    let a ← slotAddr h x.spilled
    pure (.raw a)
  else if p = 0x152 then slotLink h x.spilled
  else if p = 0x153 then readPreg h (400 + x.oldest)
  else if p = 0x154 then pure (.raw (dat (24 * ((x.oldest + 15) % 16))))
  else if p = 0x155 then do
    need (decide (x.spilled ≠ 0)) { cause := cIllegal }
    let a ← slotAddr h (x.spilled - 1)
    pure (.raw a)
  else if p = 0x156 then readPreg h (400 + (x.oldest + 15) % 16)
  else if p = 0x160 then pure (wCode x.pc)
  else pure (.raw 0)

/-- The source of a move (R79, R101). -/
def portSourceRead (h : Hart) (p : Nat) : M Word := do
  let w ← portRead h p
  need (!(isPoison w && portSource p)) { cause := cPoison }
  pure w

/-- A word a jump port takes: CODE or RAW (R101, R721). -/
def jumpWord (w : Word) : M Datum := do
  need (decide (w.type = 0x12) || decide (w.tag = 0)) { cause := cType }
  pure w.dat
/-- A conditional jump port: the word is checked whether the jump is taken or not (DESIGN CHOICE, log 75). -/
def portJump (w : Word) (taken : Bool) : M Flow := do
  let d ← jumpWord w
  pure (if taken then .jump d else .seq)
/-- Move WIN_PTR at a port (R101, R124) (DEDUCED, log 20). -/
def portWin (h : Hart) (res spl : Nat) (fill : Bool) : M Flow := do
  modM h (fun x => (x.setWin x.cwp res spl).setSpr 0x081 (x.sprD 0x081 ||| (if fill then 0xFC else 0xC0)))
  pure .seq

/-- The act of a word written to a port (R101, R102) (DEDUCED, log 23). SPR_IDX keeps any number written: one that names no special
register traps where the SPR port is used (DESIGN CHOICE, log 76). -/
def portWrite (h : Hart) (p : Nat) (w : Word) : M Flow := do
  let x ← hartM h
  let d := w.dat
  let done := fun (m : M Unit) => (do m; pure Flow.seq : M Flow)
  if p < 0x034 then done (writeSpec h (BitVec.ofNat 6 p) w)
  else if p = 0x100 then done (do
    need (decide (d.toNat ≤ 415)) { cause := cIllegal }
    modTram h (fun t => { t with pregIdx := d.toNat }))
  else if p = 0x101 then done (putPregM h x.tram.pregIdx w)
  else if p = 0x102 then done (do
    let i ← postIdx h
    putPregM h i w)
  else if p = 0x110 then done (modTram h (fun t => { t with maddr := d }))
  else if p = 0x112 then done (do
    storeWord h x.tram.maddr w 3 .word .poison
    modTram h (fun t => { t with maddr := t.maddr + 8 }))
  else if p = 0x120 then done (modTram h (fun t => { t with tagT := d.extractLsb' 0 8 }))
  else if p = 0x121 then done (modTram h (fun t => { t with tagD := d }))
  else if p = 0x130 then done (modTram h (fun t => { t with sprIdx := d }))
  else if p = 0x131 then do
    need (decide (x.tram.sprIdx.toNat < 2 ^ 12)) { cause := cIllegal }
    writeSpr h x.tram.sprIdx.toNat w
  else if p = 0x140 then done (modTram h (fun t => { t with cmpA := d }))
  else if p = 0x141 then done (modTram h (fun t =>
    { t with cmpB := d, eq := decide (t.cmpA = d), lt := decide (t.cmpA.toNat < d.toNat) }))
  else if p = 0x153 then done (putPregM h (400 + x.oldest) w)
  else if p = 0x156 then done (putPregM h (400 + (x.oldest + 15) % 16) w)
  else if p = 0x157 then do
    need (decide (x.resident ≠ 1) && decide (x.spilled ≠ fld (x.sprD 0x006) 15 0)) { cause := cIllegal }
    portWin h (x.resident - 1) (x.spilled + 1) false
  else if p = 0x158 then do
    need (decide (x.resident ≠ 15) && decide (x.spilled ≠ 0)) { cause := cIllegal }
    portWin h (x.resident + 1) (x.spilled - 1) true
  else if p = 0x160 then portJump w true
  else if p = 0x161 then portJump w x.tram.eq
  else if p = 0x162 then portJump w (!x.tram.eq)
  else if p = 0x163 then portJump w x.tram.lt
  else if p = 0x170 then do
    needPriv h 1
    serialise h
    let pc ← eretBody h
    pure (.jump pc)
  else pure .seq

/-- A Tram instruction (R100–R103): a trap leaves every register and latch as before it. -/
def bodyTram (h : Hart) (dst : Nat) (reserved : Bool) (source : M Word) : M Flow := do
  need (!reserved && portWrites dst) { cause := cReserved }
  keepRegs h (do
    let w ← source
    need (!(isPoison w && portUses dst)) { cause := cPoison }
    need (!portStores dst || isPoison w || (← get).wellFormed w) { cause := cTagInvalid }
    portWrite h dst w)

/-- The words MLOAD and MSTORE access (R664). -/
def touchTram (h : Hart) (dst src : Nat) (c : Chip) : List Touch :=
  let a := (c.hart h).tram.maddr
  (if src = 0x111 then [({ a := a } : Touch)] else []) ++
    (if dst = 0x112 then [({ a := a, ld := false, st := true } : Touch)] else [])

/-- TRAM_MOVE (R100). -/
def insnTramMove (h : Hart) (dst src : BitVec 12) (low : BitVec 6) : Insn :=
  { code := BitVec.ofNat 32 (dst.toNat * 2 ^ 18 + src.toNat * 2 ^ 6 + low.toNat), tram := true
    touch := touchTram h dst.toNat src.toNat
    body := bodyTram h dst.toNat (decide (low ≠ 0) || !portReads src.toNat) (portSourceRead h src.toNat) }
def execTramMove (h : Hart) (dst src : BitVec 12) (low : BitVec 6) (s : State) : Res := runs h (insnTramMove h dst src low) s
/-- TRAM_IMMEDIATE (R100). -/
def insnTramImmediate (h : Hart) (dst : BitVec 12) (imm : BitVec 18) : Insn :=
  { code := BitVec.ofNat 32 (2 ^ 30 + dst.toNat * 2 ^ 18 + imm.toNat), tram := true
    touch := touchTram h dst.toNat 0
    body := bodyTram h dst.toNat false (pure (.raw (imm.signExtend 64))) }
def execTramImmediate (h : Hart) (dst : BitVec 12) (imm : BitVec 18) (s : State) : Res :=
  runs h (insnTramImmediate h dst imm) s

end Sys2Proof.Machine
end

