-- ==== Sys2Proof/Machine/Micro.lean ====
section
/-! DEFINITION. Core microcode of the Blend store (R224–R255): the microword's fields, its selects and ALUs, its memory
micro-op, its sequencing, the services, and the commands that execute one word. -/
namespace Sys2Proof.Machine

/-- Bits of a microword as a number (R224). -/
def mw (w : BitVec 144) (hi lo : Nat) : Nat := (w.toNat >>> lo) % 2 ^ (hi - lo + 1)
def mwSeq (w : BitVec 144) : Nat := mw w 143 140
def mwNext (w : BitVec 144) : Nat := mw w 139 126
def mwCsel (w : BitVec 144) : Nat := mw w 124 121
def mwTdsrc (w : BitVec 144) : Nat := mw w 120 118
def mwTdmode (w : BitVec 144) : Nat := mw w 117 115
def mwMop (w : BitVec 144) : Nat := mw w 72 69
def mwImm (w : BitVec 144) : Nat := mw w 31 0
/-- An ALU's operation and selects: `lo` is 94 for ALU 0 and 73 for ALU 1. -/
def mwOp (w : BitVec 144) (lo : Nat) : Nat := mw w (lo + 20) (lo + 15)
def mwDst (w : BitVec 144) (lo : Nat) : Nat := mw w (lo + 14) (lo + 10)
def mwSa (w : BitVec 144) (lo : Nat) : Nat := mw w (lo + 9) (lo + 5)
def mwSb (w : BitVec 144) (lo : Nat) : Nat := mw w (lo + 4) lo

/-- A select that exists (R225). -/
def selOk (s : Nat) : Bool := decide (s < 0x1D)
/-- A select that may be written (R225). -/
def selWrites (s : Nat) : Bool := decide (s < 0x10) || [0x13, 0x18, 0x19, 0x1A].contains s
/-- An ALU's fields are legal (R226). -/
def aluFieldsOk (w : BitVec 144) (lo : Nat) : Bool :=
  let op := mwOp w lo
  decide (op ≤ 0x15) && decide (op ≠ 0x11) && selOk (mwDst w lo) && selOk (mwSa w lo) && selOk (mwSb w lo) &&
    (op ≠ 0 || (decide (mwDst w lo = 0) && decide (mwSa w lo = 0) && decide (mwSb w lo = 0))) &&
    (op ≠ 0x0F || decide (mwDst w lo = 0x13))
/-- An ALU writes its destination. -/
def aluWrites (w : BitVec 144) (lo : Nat) : Bool := mwOp w lo ≠ 0 && mwOp w lo ≠ 0x0F
/-- A microword without a reserved code or a non-zero 0 field (R224–R229) (DEDUCED, log 25). -/
def wordOk (w : BitVec 144) : Bool :=
  let seq := mwSeq w
  decide (seq ≤ 0xA) && decide (mwCsel w < 0xC) && decide (mwTdsrc w < 6) && decide (mwTdmode w < 3)
    && aluFieldsOk w 94 && aluFieldsOk w 73 && decide (mwMop w < 5)
    && selOk (mw w 68 64) && selOk (mw w 63 59) && selOk (mw w 56 52)
    && decide (mw w 58 57 = 0) && decide (mw w 51 48 = 0)
    && (seq ≠ 6 || (decide (mwTdmode w ≠ 0) && (mwTdmode w ≠ 1 || decide (mwNext w % 64 = 0))
      && (mwTdmode w ≠ 2 || decide (mwNext w % 4 = 0))))
    && (seq ≠ 9 || decide (mwImm w % 8 < 4))

/-- Flags as Z, N, C, V. -/
abbrev Flags := Bool × Bool × Bool × Bool
/-- The result and flags of an ALU operation other than TMAKE (R226); no flags where they are kept (DESIGN CHOICE, log 24). -/
def aluOut (op : Nat) (a b : Word) : Option Word × Option Flags :=
  let x := a.dat
  let y := b.dat
  let n := fun (d : Datum) => bit d 63
  let sub : Flags := (x - y == 0, n (x - y), (decide (x.toNat < y.toNat)) != Config.subCarry,
    decide ((x - y).toInt ≠ x.toInt - y.toInt))
  let logic := fun (d : Datum) => ((some (Word.raw d), some (d == 0, n d, false, false)) : Option Word × Option Flags)
  let keep := fun (w : Word) => ((some w, none) : Option Word × Option Flags)
  match op with
  | 0x01 => keep a
  | 0x02 => keep (.raw x)
  | 0x03 => keep (.raw (a.tag.zeroExtend 64))
  | 0x05 => (some (.raw (x + y)), some (x + y == 0, n (x + y), decide (x.toNat + y.toNat ≥ 2 ^ 64),
      decide ((x + y).toInt ≠ x.toInt + y.toInt)))
  | 0x06 => (some (.raw (x - y)), some sub)
  | 0x07 => (some (.raw (x * y)), some (x * y == 0, n (x * y), false, decide ((x * y).toInt ≠ x.toInt * y.toInt)))
  | 0x08 => keep (.raw (mulh x y))
  | 0x09 => logic (x &&& y)
  | 0x0A => logic (x ||| y)
  | 0x0B => logic (x ^^^ y)
  | 0x0C => keep (.raw (shl128 x y))
  | 0x0D => keep (.raw (shr128 x y))
  | 0x0E => keep (.raw (sar128 x y))
  | 0x0F => (none, some sub)
  | 0x10 => keep (.raw (clzD x))
  | 0x12 => keep (wFlo (fadd x y).1)
  | 0x13 => keep (wFlo (fsub x y).1)
  | 0x14 => keep (wFlo (fmul x y).1)
  | 0x15 => keep (wFlo (fdiv x y).1)
  | _ => (none, none)

/-- No routine. -/
def Micro.none : Micro :=
  { upc := 0, entry := 0, cls := 0, byRt := 0, tsel := 0, aops := ⟨0, 0, 0⟩, insn := 0, us := [], ops := .raw 0,
    opt := .raw 0, opd := .raw 0, mdr := .raw 0, z := false, n := false, c := false, v := false, stack := [],
    count := 0, atCommit := false, phase := .fetch, tp0 := 0 }
/-- The routine a thread executes. -/
def microM (h : Hart) : M Micro := do
  let x ← hartM h
  pure (x.micro.getD Micro.none)
/-- Change it. -/
def modMicro (h : Hart) (f : Micro → Micro) : M Unit := modM h (fun x => { x with micro := x.micro.map f })
/-- A micro-temporary. -/
def Micro.u (m : Micro) (i : Nat) : Word := sget m.us i (.raw 0)
def Micro.setU (m : Micro) (i : Nat) (w : Word) : Micro := { m with us := sset m.us i w (.raw 0) }

/-- An operand word of the routine, healed in place where it is stale (R453). -/
def operandM (h : Hart) (w : Word) (put : Micro → Word → Micro) : M Word := do
  let c ← get
  if c.stale (c.hart h) w then do
    let v ← healFor h w
    modMicro h (fun m => put m v)
    pure v
  else pure w

/-- A select as read (R225). -/
def selRead (h : Hart) (s imm : Nat) : M Word := do
  let m ← microM h
  if s < 0x10 then pure (m.u s)
  else match s with
    | 0x10 => operandM h m.ops (fun m w => { m with ops := w })
    | 0x11 => operandM h m.opt (fun m w => { m with opt := w })
    | 0x12 => operandM h m.opd (fun m w => { m with opd := w })
    | 0x14 => pure (.raw (dat imm))
    | 0x15 => do pure (.raw (← hartM h).tp)
    | 0x16 => do pure (.raw (← sprM h 0x003))
    | 0x17 => do pure (.raw (((← get).goodOf (← hartM h)).zeroExtend 64))
    | 0x18 => do pure (.raw (← sprM h 0x018))
    | 0x19 => do
      lazyLoad h 11
      pure ((← hartM h).sprW 0x019)
    | 0x1A => do
      lazyLoad h 11
      pure ((← hartM h).sprW 0x01A)
    | 0x1B => pure m.mdr
    | 0x1C => pure (.raw (dat (m.entry.toNat + m.cls * 2 ^ 16 + m.byRt.toNat * 2 ^ 21 + m.tsel.toNat * 2 ^ 24)))
    | _ => pure (.raw 0)
/-- A select as written (R225). -/
def selWrite (h : Hart) (s : Nat) (w : Word) : M Unit := do
  if s < 0x10 then modMicro h (fun m => m.setU s w)
  else match s with
    | 0x18 => do
      let b ← sprM h 0x018
      setSprM h 0x018 (setFld b 39 0 (fld w.dat 39 0))
    | 0x19 => do
      lazyLoad h 11
      modM h (fun x => (x.setSprW 0x019 w).dirty (some 11))
    | 0x1A => do
      lazyLoad h 11
      modM h (fun x => (x.setSprW 0x01A w).dirty (some 11))
    | _ => pure ()

/-- TMAKE (R248): a pointer takes the good colour and passes through heal (R454). -/
def tmake (h : Hart) (ua : Nat) (a b : Word) : M Word := do
  let c ← get
  let x := c.hart h
  let w0 : Word := ⟨b.dat.extractLsb' 0 8, a.dat⟩
  let w : Word := if c.ptr w0 then c.goodPtr h w0.type a.dat else w0
  let may := decide (x.priv ≠ 0) || decide (w.tag = 0) || c.imm w || (user w.type && c.ptr w)
  need (c.producible w && may) (blendFault ua 6)
  if c.ptr w then healFor h w else pure w
/-- An ALU's result and flags. -/
def aluM (h : Hart) (ua : Nat) (w : BitVec 144) (lo : Nat) : M (Option Word × Option Flags) := do
  let op := mwOp w lo
  if op = 0 then pure (none, none)
  else do
    let a ← selRead h (mwSa w lo) (mwImm w)
    let b ← selRead h (mwSb w lo) (mwImm w)
    if op = 4 then do
      let v ← tmake h ua a b
      pure (some v, none)
    else pure (aluOut op a b)
/-- An ALU's writes. -/
def aluPut (h : Hart) (w : BitVec 144) (lo : Nat) (r : Option Word × Option Flags) : M Unit := do
  match r.1 with
  | some v => if aluWrites w lo then selWrite h (mwDst w lo) v else pure ()
  | none => pure ()
  match r.2 with
  | some (z, n, c, v) => modMicro h (fun m => { m with z := z, n := n, c := c, v := v })
  | none => pure ()

/-- The select TDSRC names (R224): OPS, OPT, OPD, U0, U1, MDR. -/
def tdSelect (n : Nat) : Nat :=
  match n with
  | 0 => 0x10 | 1 => 0x11 | 2 => 0x12 | 3 => 0x00 | 4 => 0x01 | _ => 0x1B
/-- The word TDSRC names (R224). -/
def tdWord (h : Hart) (w : BitVec 144) : M Word := selRead h (tdSelect (mwTdsrc w)) (mwImm w)
/-- RESUME (R255). -/
def Chip.resumeHolds (c : Chip) (h : Hart) (m : Micro) : Bool :=
  let b := (c.hart h).sprD 0x018
  bit b 63 && decide (fld b 62 49 = m.entry.toNat) && decide (fld b 47 40 = c.rf (bldAt (clusterOf h).toNat 0x118) 15 8)
/-- The condition of a word (R228). -/
def condM (h : Hart) (w : BitVec 144) : M Bool := do
  let m ← microM h
  let code := mwCsel w
  let t ← (if 7 ≤ code ∧ code ≤ 9 then tdWord h w else pure (.raw 0))
  if code = 0xB then lazyLoad h 11 else pure ()
  let a ← (if code = 0xA then selRead h 0x10 0 else pure (.raw 0))
  let b ← (if code = 0xA then selRead h 0x11 0 else pure (.raw 0))
  let c ← get
  let lt := m.n != m.v
  let r := match code with
    | 0x0 => true
    | 0x1 => m.z
    | 0x2 => m.n
    | 0x3 => m.c
    | 0x4 => m.v
    | 0x5 => lt
    | 0x6 => m.z || lt
    | 0x7 => decide (t.type.toNat = mwImm w % 64)
    | 0x8 => c.ptr t
    | 0x9 => c.num t
    | 0xA => decide (a.type = b.type)
    | _ => c.resumeHolds h m
  pure (r != decide (mw w 125 125 = 1))

/-- The memory micro-op (R229, R232), its address and datum read before the word's writes; whether a load was sent to the
host window. -/
def memOp (h : Hart) (w : BitVec 144) (base data : Word) : M (Option Nat) := do
  let a := base.dat + (BitVec.ofNat 16 (mw w 47 32)).signExtend 64 * 8
  match mwMop w with
  | 1 => do
    let v ← loadWord h a
    modMicro h (fun m => { m with mdr := v })
    pure none
  | 2 => do
    storeWord h a data 3 .word
    pure none
  | 3 => do
    match ← loadRaw h (← hartM h).regime a 8 with
    | .now d => do
      modMicro h (fun m => { m with mdr := .raw d })
      pure none
    | .sent pa => pure (some pa)
  | 4 => do
    storeRaw h (← hartM h).regime a 8 data.dat
    pure none
  | _ => pure none

/-- Go to a microaddress within the Blend store (R247). -/
def goMicro (h : Hart) (ua target : Nat) : M Flow := do
  need (decide (0x3800 ≤ target) && decide (target ≤ 0x3FFF)) (blendFault ua 2)
  modMicro h (fun m => { m with upc := BitVec.ofNat 14 target })
  pure .routine

/-- The instruction completes (R245), or a nested operation returns to the routine that asked for it (R247)
(DEDUCED, log 25). -/
def blendEnd (h : Hart) (ua : Nat) (v : Word) : M Flow := do
  let x ← hartM h
  let m ← microM h
  let cmp := decide (6 ≤ m.cls) && decide (m.cls ≤ 8)
  need (!cmp || v = wTrue || v = wNil) (blendFault ua 9)
  match x.nest with
  | outer :: rest => do
    modM h (fun x => { x with micro := some (outer.setU 3 v), nest := rest })
    pure .routine
  | [] => do
    let put := m.cls ≠ 11 && m.cls ≠ 12 && m.cls ≠ 14
    need (!put || (pregOf x.cwp m.aops.rd).isNone || (← get).producible v) { cause := cTagInvalid }
    if cmp then setCond h (condBool (decide (v = wTrue))) else pure ()
    if put then writeSpec h m.aops.rd v
    else if m.cls = 14 then pure ()
    else writeSpec h m.aops.rd m.ops
    let b ← sprM h 0x018
    if bit b 63 then setSprM h 0x018 (setFld b 63 63 0) else pure ()
    modM h (fun x => { x with micro := none })
    pure .seq

/-- Service ALLOC (R247). -/
def svcAlloc (h : Hart) (ua : Nat) : M Unit := do
  let m ← microM h
  let w := (m.u 0).dat.toNat
  let c ← get
  let p := c.goodPtr h ((m.u 1).dat.extractLsb' 0 6) 0
  need (decide ((m.u 0).tag = 0) && decide ((m.u 1).tag = 0) && decide (w % 2 = 0) && decide (2 ≤ w) && decide (w ≤ 4096)
    && c.ptr p && decide (p.type ≠ 0x07)) (blendFault ua 0x0A)
  let tp ← allocCheck h w
  storeAll h tp ((List.range w).map (fun _ => Word.raw 0))
  advanceTp h tp w
  modMicro h (fun m => m.setU 2 { p with dat := tp })
/-- Service GENERIC stops at a commit point of the bignum path it runs on (R217, R235): when is open (DESIGN CHOICE, log 43). -/
def svcStops (h : Hart) : M Bool := do
  let m ← microM h
  let cls := (m.u 2).dat.toNat
  let a := m.u 0
  let b := if cls = 4 then Word.raw 0 else m.u 1
  let c ← get
  if m.phase ≠ .fetch || (m.u 2).tag ≠ 0 || decide (cls > 8) || decide (c.resolve cls a b ≠ .numeric)
      || !Config.freeBit c.fresh then pure false
  else do
    tagUse [a, b]
    let p ← numPlan h cls a b
    if !p.long then pure false
    else do
      modify Chip.tick
      longBegin h cls a b (Config.freeNat c.fresh)
      pure true
/-- Service GENERIC (R247): on the vendor path its result is at hand, on a user type's it nests. -/
def svcGeneric (h : Hart) (ua : Nat) : M Unit := do
  let m ← microM h
  let cls := (m.u 2).dat.toNat
  need (decide ((m.u 2).tag = 0) && decide (cls ≤ 8)) (blendFault ua 0x0A)
  let a := m.u 0
  let b := if cls = 4 then Word.raw 0 else m.u 1
  tagUse [a, b]
  let c ← get
  match c.resolve cls a b with
  | .bad => raise { cause := cType }
  | .blend t byRt => do
    let x ← hartM h
    let _ ← enterBlend h (c.vector t cls) cls (b2n byRt) t.toNat m.aops m.insn a b m.opd
    modM h (fun y => { y with nest := m :: x.nest, micro := y.micro.map (fun (n : Micro) => { n with tp0 := m.tp0 }) })
  | d => do
    let tp := (← hartM h).tp
    let (w, n) ← numOp h cls d a b
    advanceTp h tp n
    modMicro h (fun m => m.setU 3 w)
/-- One word of service COPY (R247); whether it has copied them all. -/
def svcCopy (h : Hart) (ua : Nat) : M Bool := do
  let m ← microM h
  need (decide ((m.u 2).tag = 0)) (blendFault ua 0x0A)
  if (m.u 2).dat = 0 then pure true
  else do
    let a ← baseOf (m.u 0)
    let b ← baseOf (m.u 1)
    let w ← loadWord h a
    storeWord h b w 3 .word
    modMicro h (fun m => ((m.setU 0 { m.u 0 with dat := a + 8 }).setU 1 { m.u 1 with dat := b + 8 }).setU 2
      (.raw ((m.u 2).dat - 1)))
    pure ((m.u 2).dat = 1)
/-- One cell of service SEARCH (R247); whether it has its result. -/
def svcSearch (h : Hart) (ua : Nat) : M Bool := do
  let m ← microM h
  let l := m.u 0
  need (decide (l.type = 0x08) || l = wNil) (blendFault ua 0x0A)
  if l = wNil then do
    modMicro h (fun m => m.setU 2 wNil)
    pure true
  else do
    let car ← loadWord h l.dat
    if (← get).wordEq car (m.u 1) then do
      modMicro h (fun m => m.setU 2 l)
      pure true
    else do
      let cdr ← loadWord h (l.dat + 8)
      need (decide (cdr.type = 0x08) || cdr = wNil) (blendFault ua 0x0A)
      modMicro h (fun m => m.setU 0 cdr)
      pure false
/-- A service call (R233, R247): COPY and SEARCH stop at a commit point of their own after each word or cell, GENERIC at one of
its bignum path (DEDUCED, log 25). Services are vendor microcode (R223). -/
def service (h : Hart) (ua entry : Nat) : M Flow := do
  need (decide ((← microM h).stack.length < 4)) (blendFault ua 3)
  need (decide (ua < 0x3FFF)) (blendFault ua 2)
  vendorFetch h entry
  let next := fun (m : Micro) => { m with upc := BitVec.ofNat 14 (ua + 1), phase := .fetch }
  if entry = 0x2FF0 then do
    svcAlloc h ua
    modMicro h next
  else if entry = 0x2FF1 then do
    if ← svcStops h then modMicro h (fun m => { m with phase := .generic, atCommit := true })
    else do
      modMicro h next
      svcGeneric h ua
  else do
    let fin ← (if entry = 0x2FF2 then svcCopy h ua else svcSearch h ua)
    if fin then modMicro h next
    else modMicro h (fun m => { m with phase := .service, atCommit := true })
  pure .routine

/-- The sequencing of a word (R227, R233, R247), given its condition and the word TDSRC named. -/
def sequence (h : Hart) (ua : Nat) (w : BitVec 144) (cond : Bool) (td : Word) : M Flow := do
  let m ← microM h
  let c ← get
  match mwSeq w with
  | 0x1 => goMicro h ua (ua + 1)
  | 0x2 => goMicro h ua (mwNext w)
  | 0x3 => goMicro h ua (if cond then mwNext w else ua + 1)
  | 0x4 =>
    if 0x2FF0 ≤ mwNext w ∧ mwNext w ≤ 0x2FF3 then service h ua (mwNext w)
    else do
      need (decide (m.stack.length < 4)) (blendFault ua 3)
      modMicro h (fun m => { m with stack := BitVec.ofNat 14 (ua + 1) :: m.stack })
      goMicro h ua (mwNext w)
  | 0x5 =>
    match m.stack with
    | r :: rest => do
      modMicro h (fun m => { m with stack := rest })
      goMicro h ua r.toNat
    | [] => raise (blendFault ua 3)
  | 0x6 =>
    let k := b2n (c.ptr td) + 2 * b2n (user td.type)
    goMicro h ua (mwNext w + (if mwTdmode w = 1 then td.type.toNat else k))
  | 0x7 => do
    let f ← goMicro h ua (ua + 1)
    modMicro h (fun m => { m with atCommit := true, count := 0 })
    pure f
  | 0x8 => do
    let v ← selRead h (mw w 56 52) (mwImm w)
    blendEnd h ua v
  | 0x9 =>
    match mwImm w % 8 with
    | 0 => raise { cause := cType }
    | 1 => raise { cause := cBounds }
    | 2 => raise { cause := cDivZero }
    | _ => raise { cause := cSoft, detail := mwImm w / 2 ^ 16 % 2 ^ 14 }
  | _ => raise (blendFault ua 8)

/-- The work of a word before its sequencing (R231): its condition, TDSRC's word, the ALUs, the memory micro-op. -/
def wordWork (h : Hart) (ua : Nat) (w : BitVec 144) : M (Bool × Word × Option Nat) := do
  need (wordOk w) (blendFault ua 4)
  need ((!aluWrites w 94 || selWrites (mwDst w 94)) && (!aluWrites w 73 || selWrites (mwDst w 73))) (blendFault ua 5)
  let cond ← (if mwSeq w = 3 then condM h w else pure true)
  let td ← (if mwSeq w = 6 then tdWord h w else pure (.raw 0))
  let base ← (if mwMop w = 0 then pure (Word.raw 0) else selRead h (mw w 68 64) (mwImm w))
  let data ← (if mwMop w = 2 ∨ mwMop w = 4 then selRead h (mw w 63 59) (mwImm w) else pure (Word.raw 0))
  let r0 ← aluM h ua w 94
  let r1 ← aluM h ua w 73
  aluPut h w 94 r0
  aluPut h w 73 r1
  let sent ← memOp h w base data
  pure (cond, td, sent)

/-- A load micro-op's request has gone to the host window: the thread waits for it (R232). -/
def microSent (h : Hart) (pa : Nat) : M Unit := do
  modify (fun c => c.modPcie (fun e => { e with loads := e.loads ++ [⟨h, BitVec.ofNat 52 pa, 48, 0⟩] }))
  modM h (fun x => { x with wait := some .hostLoad })
/-- A word's sequencing waits for the load it sent to the host window (R232): its END may deliver MDR, and the routine that a
service nests has an MDR of its own. -/
def waitsFirst (w : BitVec 144) : Bool := decide (mwSeq w = 8) || (decide (mwSeq w = 4) && decide (mwNext w = 0x2FF1))
/-- The sequencing of a word, and the commit limit of R249 after it. -/
def wordEnds (h : Hart) (ua count : Nat) (w : BitVec 144) (cond : Bool) (td : Word) : M Flow := do
  let f ← sequence h ua w cond td
  let late := decide (count ≥ 64) && mwSeq w ≠ 7 && mwSeq w ≠ 8 && !((← get).hart h).micro.any (fun (n : Micro) => decide (n.phase ≠ .fetch))
  need (!late) (blendFault ua 1)
  pure f
/-- Execute one microword (R230–R249), or go on in one (DEDUCED, log 25). -/
def microStep (h : Hart) (w : BitVec 144) : M Flow := do
  let m ← microM h
  let ua := m.upc.toNat
  if mwSeq w = 0 then raise { cause := if m.cls = 16 then cReserved else cType }
  else if m.phase ≠ .fetch then do
    modMicro h (fun m => { m with atCommit := false, phase := if m.phase = .sent then .fetch else m.phase })
    wordEnds h ua m.count w true (.raw 0)
  else do
    modMicro h (fun m => { m with atCommit := false, count := m.count + 1 })
    let (cond, td, sent) ← wordWork h ua w
    match sent with
    | none => wordEnds h ua (m.count + 1) w cond td
    | some pa =>
      if waitsFirst w then do
        modMicro h (fun m => { m with phase := .sent })
        microSent h pa
        pure .routine
      else do
        let f ← wordEnds h ua (m.count + 1) w cond td
        microSent h pa
        pure f

/-- A thread can execute its routine's next word: its core has not failed (R30), and at a commit point no event, no halt and no
swap of the cluster's store is due before it (R234, R262, R661). -/
def Chip.microReady (c : Chip) (h : Hart) (m : Micro) : Bool :=
  let x := c.hart h
  decide (x.run = .run) && x.wait.isNone && decide (c.hartDom h = .on) && c.coreOk h
    && !(m.atCommit && ((c.acceptable h).isSome || c.haltDue h || (c.xfers.lookup (clusterOf h).toNat).isSome))

/-- The routine's word is fetched: faults of the core's logic and of the stored microword are met (R30, R222). One that cannot be
corrected makes the cluster's store unusable, and the routine traps as a dispatch then does (DEDUCED, log 85). -/
def Chip.fetchMicro (c : Chip) (h : Hart) (ua : Nat) : Chip × Bool :=
  if c.latent.isEmpty then (c, false)
  else
    let (c, bad) := (c.meetLogic h).meetControl h ua
    if bad && c.coreOk h then
      let c := c.controlError h ua 1
      ({ c with blendBad := c.blendBad ++ [(clusterOf h).toNat] }, true)
    else (c, false)

/-- The next word of a thread's routine, where it is of the row's kind (R227). -/
def Chip.runMicro (c : Chip) (h : Hart) (kind : Nat → Bool) : Chip :=
  let x := c.hart h
  match x.micro with
  | none => c
  | some m =>
    let w := c.blendWord (clusterOf h).toNat m.upc.toNat
    if !c.microReady h m || !kind (mwSeq w) then c
    else
      let (c, bad) := c.fetchMicro h m.upc.toNat
      if !c.coreOk h then c
      else match (if bad then raise (blendFault m.upc.toNat 0x0B) else microStep h w : M Flow) c with
      | .ok .routine c' => c'
      | .ok f c' => (c'.modHart h (fun y => { y with insn := m.insn })).retire h f x.priv x.repa
      | .error s c' =>
        let c' := c'.modHart h (fun y => if y.tp = m.tp0 then y else y.putPreg 417 (.raw m.tp0))
        let d := c.stopped c' h s x.pc x.pc m.insn
        if s = .wait then d else d.stepEnd h

/-- A microword's row (R227). -/
def seqRow (h : Hart) (code : Nat) (s : State) : Res := done s (s.chip.runMicro h (fun k => decide (k = code)))
/-- SEQ_REJECT (R243). -/
def execSeqReject (h : Hart) (s : State) : Res := seqRow h 0 s
/-- SEQ_NEXT (R227); a word with a reserved SEQ is executed here too, and faults. -/
def execSeqNext (h : Hart) (s : State) : Res := done s (s.chip.runMicro h (fun k => decide (k = 1) || decide (k > 0xA)))
/-- SEQ_JUMP (R227). -/
def execSeqJump (h : Hart) (s : State) : Res := seqRow h 2 s
/-- SEQ_CJUMP (R227). -/
def execSeqCjump (h : Hart) (s : State) : Res := seqRow h 3 s
/-- SEQ_CALL (R227). -/
def execSeqCall (h : Hart) (s : State) : Res := seqRow h 4 s
/-- SEQ_RETURN (R227). -/
def execSeqReturn (h : Hart) (s : State) : Res := seqRow h 5 s
/-- SEQ_TDISP (R227). -/
def execSeqTdisp (h : Hart) (s : State) : Res := seqRow h 6 s
/-- SEQ_COMMIT (R227). -/
def execSeqCommit (h : Hart) (s : State) : Res := seqRow h 7 s
/-- SEQ_END (R227). -/
def execSeqEnd (h : Hart) (s : State) : Res := seqRow h 8 s
/-- SEQ_FAIL (R227). -/
def execSeqFail (h : Hart) (s : State) : Res := seqRow h 9 s
/-- SEQ_WAIT (R237, R238): a unit's context waits; in core microcode it faults (R251). -/
def execSeqWait (u : Sequencer) (w : UnitWait) (s : State) : Res :=
  match u with
  | .core h => seqRow h 0xA s
  | u => execUnitSeqWait u w s

/-- BLEND (R243). -/
def bodyBlend (h : Hart) (o : AOps) (sel : BitVec 8) : M Flow := do
  specsOk [o.rd, o.rs, o.rt]
  let a ← src h o.rs
  let b ← src h o.rt
  let d ← src h o.rd
  enterBlend h (0x3F00 + sel.toNat) 16 2 sel.toNat o (encA 0x15 sel.toNat o) a b d
def insnBlend (h : Hart) (o : AOps) (sel : BitVec 8) : Insn := { code := encA 0x15 sel.toNat o, body := bodyBlend h o sel }
def execBlend (h : Hart) (o : AOps) (sel : BitVec 8) (s : State) : Res := runs h (insnBlend h o sel) s

end Sys2Proof.Machine
end

