-- ==== Sys2Proof/Machine/Rep.lean ====
section
/-! DEFINITION. The REP prefix (R110–R113) and the decoding of a fetched instruction word (R138–R142), by which the
instruction under REP, or under a debug step, is found. -/
namespace Sys2Proof.Machine

/-- An instruction that may not follow REP, by its word (R113). -/
def repForbids (w : BitVec 32) : Bool :=
  let n := w.toNat
  let op := n / 2 ^ 26
  let fn := n % 2 ^ 8
  let num := n % 2 ^ 12
  [0x12, 0x13, 0x14, 0x30, 0x31, 0x32].contains op
    || (op = 0x03 && [0x10, 0x11, 0x12, 0x13, 0x14, 0x18, 0x19, 0x1A, 0x1B, 0x1C].contains fn)
    || (op = 0x11 && decide (n % 2 ^ 14 < 2 ^ 12) && (num = 0x000 || num = 0x04E || num = 0x04C
      || (decide (0x040 ≤ num) && decide (num ≤ 0x04B))))

/-- The word after a REP, where it can be fetched: a fault there is the next instruction's own. -/
def nextWord (h : Hart) : M (Option (BitVec 32)) := do
  let pc := (← hartM h).nextPc
  tryCatch (do
    let w ← fetchWord h pc
    pure (some w)) (fun _ => pure none)

/-- A REP stands at the end of an active level (R113). -/
def HartSt.atLoopEnd (x : HartSt) : Bool := (List.range x.ldepth).any (fun d => decide (x.sprD (0x044 + d) = x.pc))

/-- REP begins its repetitions (R110), or skips the next instruction (R111) (DEDUCED, log 18). -/
def HartSt.startRep (x : HartSt) (n : Nat) : HartSt × Datum :=
  let y := (x.putSpr 0x04C (setFld (x.sprD 0x04C) 15 0 n)).dirty (some 6)
  if n = 0 then y.loopEnd x.nextPc 4 else (y.putSpr 0x000 (setFld y.pstate 7 7 1), x.nextPc)

/-- REP (R110–R113). -/
def bodyRep (h : Hart) (o : IOps) : M Flow := do
  zeroField o.rd
  need (o.rs = 48 || o.imm = 0) { cause := cReserved }
  specsOk [o.rs]
  let next ← nextWord h
  need (!(← hartM h).atLoopEnd && !next.any repForbids) { cause := cIllegal }
  let n ← (if o.rs = 48 then pure o.imm.toNat else do
    let w ← src h o.rs
    countOf w 65535)
  let r := (← hartM h).startRep n
  modM h (fun _ => r.1)
  pure (.jump r.2)
/-- REP (R110). -/
def insnRep (h : Hart) (o : IOps) : Insn := { code := encI 0x13 o, body := bodyRep h o }
def execRep (h : Hart) (o : IOps) (s : State) : Res := runs h (insnRep h o) s

/-- The fields of a word (R138). -/
def opsA (w : BitVec 32) : AOps := ⟨w.extractLsb' 20 6, w.extractLsb' 14 6, w.extractLsb' 8 6⟩
def opsI (w : BitVec 32) : IOps := ⟨w.extractLsb' 20 6, w.extractLsb' 14 6, w.extractLsb' 0 14⟩

/-- The OPA group (R142). -/
def decodeOpa (h : Hart) (w : BitVec 32) : Insn :=
  let o := opsA w
  match (w.extractLsb' 0 8).toNat with
  | 0x00 => insnAdd h o | 0x01 => insnSub h o | 0x02 => insnMul h o | 0x03 => insnMulh h o | 0x04 => insnDiv h o
  | 0x05 => insnRem h o | 0x08 => insnAnd h o | 0x09 => insnOr h o | 0x0A => insnXor h o | 0x0C => insnShl h o
  | 0x0D => insnShr h o | 0x0E => insnSar h o | 0x10 => insnClz h o | 0x11 => insnCtz h o | 0x12 => insnPopc h o
  | 0x14 => insnBfx h o | 0x15 => insnBfi h o | 0x16 => insnBperm h o | 0x18 => insnCmp h o
  | _ => insnNone false w
/-- The OPF group (R142). -/
def decodeOpf (h : Hart) (w : BitVec 32) : Insn :=
  let o := opsA w
  match (w.extractLsb' 0 8).toNat with
  | 0x00 => insnFadd h o | 0x01 => insnFsub h o | 0x02 => insnFmul h o | 0x03 => insnFdiv h o | 0x04 => insnFma h o
  | 0x08 => insnFcvtIf h o | 0x09 => insnFcvtFi h o | 0x0A => insnFcvtFn h o | 0x0B => insnFcvtBf h o
  | 0x10 => insnFcmp h o
  | _ => insnNone false w
/-- The OPG group (R142). -/
def decodeOpg (h : Hart) (w : BitVec 32) : Insn :=
  let o := opsA w
  match (w.extractLsb' 0 8).toNat with
  | 0x00 => insnGadd h o | 0x01 => insnGsub h o | 0x02 => insnGmul h o | 0x03 => insnGdiv h o | 0x04 => insnGneg h o
  | 0x05 => insnGash h o | 0x08 => insnGlt h o | 0x09 => insnGle h o | 0x0A => insnGeq h o | 0x0B => insnEq h o
  | 0x10 => insnCar h o | 0x11 => insnCdr h o | 0x12 => insnRplaca h o | 0x13 => insnRplacd h o | 0x14 => insnCons h o
  | 0x18 => insnGetv h o | 0x19 => insnSetv h o | 0x1C => insnTypeof h o | 0x1D => insnMkfix h o | 0x1E => insnUnbox h o
  | 0x1F => insnTagset h o
  | _ => insnNone false w
/-- The OPS group (R142, R178). -/
def decodeOps (h : Hart) (w : BitVec 32) : Insn :=
  let o := opsA w
  match (w.extractLsb' 0 8).toNat with
  | 0x00 => insnFenceL h o | 0x01 => insnFenceS h o | 0x02 => insnFenceLs h o | 0x03 => insnFenceG h o
  | 0x10 => insnCallReg h o | 0x11 => insnRet h o | 0x12 => insnSyscall h o | 0x13 => insnSysret h o
  | 0x14 => insnEret h o | 0x15 => insnWfi h o | 0x16 => insnWaitt h o | 0x18 => insnCtxsw h o
  | 0x19 => insnSaveu h o | 0x1A => insnSavel h o | 0x1B => insnRstru h o | 0x1C => insnRstrl h o
  | 0x20 => insnTubpop h o | 0x21 => insnTubcnt h o
  | 0x40 => insnCleanAddr h o | 0x41 => insnInvalAddr h o | 0x42 => insnCiAddr h o
  | 0x44 => insnCleanSet h o | 0x45 => insnInvalSet h o | 0x46 => insnCiSet h o
  | 0x48 => insnCleanRange h o | 0x49 => insnInvalRange h o | 0x4A => insnCiRange h o
  | _ => insnNone false w
/-- The OPT and OPR groups (R142). -/
def decodeOpt (h : Hart) (w : BitVec 32) : Insn :=
  let o := opsA w
  let fn := (w.extractLsb' 0 3).toNat
  let tub := w.getLsbD 3
  let noret := w.getLsbD 4
  let mode := w.extractLsb' 5 3
  if fn = 5 then insnAwalk h o tub noret mode else if fn < 5 then insnAtomic h o fn tub noret mode else insnNone false w
def decodeOpr (h : Hart) (w : BitVec 32) : Insn :=
  let o := opsA w
  let fn := (w.extractLsb' 0 8).toNat
  if fn < 4 then insnGamo h o fn false
  else if 0x10 ≤ fn ∧ fn < 0x14 then insnGamo h o (fn - 0x10) true
  else if 0x20 ≤ fn ∧ fn ≤ 0x28 then insnSend h o (BitVec.ofNat 4 (fn - 0x20))
  else insnNone false w
/-- An instruction word outside Tram mode (R141). -/
def decodeWord (h : Hart) (w : BitVec 32) : Insn :=
  let o := opsI w
  let cond : BitVec 4 := w.extractLsb' 22 4
  let disp : BitVec 22 := w.extractLsb' 0 22
  match (w.extractLsb' 26 6).toNat with
  | 0x00 => decodeOpa h w | 0x01 => decodeOpf h w | 0x02 => decodeOpg h w | 0x03 => decodeOps h w
  | 0x04 => insnAddi h o | 0x05 => insnAndi h o | 0x06 => insnOri h o | 0x07 => insnXori h o
  | 0x08 => insnShli h o | 0x09 => insnShri h o | 0x0A => insnSari h o | 0x0B => insnShori h o
  | 0x0C => insnCmpi h o | 0x0D => insnTagchk h o | 0x10 => insnRdspr h o | 0x11 => insnWrspr h o
  | 0x12 => insnLsetup h o | 0x13 => insnRep h o | 0x14 => insnTrap o
  | 0x15 => insnBlend h (opsA w) (w.extractLsb' 0 8)
  | 0x18 => insnLdw h o | 0x19 => insnStw h o | 0x1A => insnLdd h o | 0x1B => insnStd h o
  | 0x1C => insnLdb h o | 0x1D => insnLdh h o | 0x1E => insnLdq h o | 0x1F => insnStb h o
  | 0x20 => insnSth h o | 0x21 => insnStq h o | 0x22 => insnStcode h o | 0x23 => insnLdrsv h o
  | 0x24 => insnStcnd h o | 0x25 => insnTas h o | 0x26 => insnTubld h o | 0x27 => insnGld h o | 0x28 => insnGst h o
  | 0x29 => decodeOpr h w | 0x2A => decodeOpt h w
  | 0x30 => insnBr h cond disp | 0x31 => insnCall h cond disp | 0x32 => insnJmpl h o
  | _ => insnNone false w
/-- A Tram instruction word (R100). -/
def decodeTram (h : Hart) (w : BitVec 32) : Insn :=
  match (w.extractLsb' 30 2).toNat with
  | 0 => insnTramMove h (w.extractLsb' 18 12) (w.extractLsb' 6 12) (w.extractLsb' 0 6)
  | 1 => insnTramImmediate h (w.extractLsb' 18 12) (w.extractLsb' 0 18)
  | _ => insnNone true w

/-- The instruction at a thread's PC; where the fetch faults, executing it takes that fault. -/
def Chip.atPc (c : Chip) (h : Hart) : Insn :=
  let x := c.hart h
  match fetchWord h x.pc c with
  | .ok w _ => if x.tramMode then decodeTram h w else decodeWord h w
  | .error _ _ => insnNone x.tramMode 0

/-- One repetition under REP (R110): the instruction at the PC, while PSTATE.REPA = 1. -/
def Chip.repetition (c : Chip) (h : Hart) : Chip :=
  let x := c.hart h
  if c.ready h && x.repa && !x.tramMode then c.execute h (c.atPc h) else c
/-- REP_REPETITION (R110). -/
def execRepRepetition (h : Hart) (s : State) : Res := done s (s.chip.repetition h)

end Sys2Proof.Machine
end

