-- ==== Sys2Proof/Machine/Async.lean ====
section
/-! DEFINITION. Accepting an asynchronous event at a boundary of R272: between instructions, between repetitions, at a
commit point of a routine, or part-way through a bignum-path, range or context-save operation (R129, R217, R387). -/
namespace Sys2Proof.Machine

/-- The class number of a numeric OPG function code that can run on the bignum path (R183, R217). -/
def bignumClass (fn : Nat) : Option Nat :=
  if fn ≤ 5 then some fn else if 8 ≤ fn ∧ fn ≤ 10 then some (fn - 2) else none

/-- What a bignum-path operation suspended at a commit point records (R217) (DESIGN CHOICE, log 43). -/
def partBignum (h : Hart) (p : Partial) (cls : Nat) : M Unit := do
  if cls = 4 then zeroField p.ops.rt else pure ()
  specsOk [p.ops.rd, p.ops.rs, p.ops.rt]
  let a ← src h p.ops.rs
  let b ← (if cls = 4 then pure (Word.raw 0) else src h p.ops.rt)
  tagUse [a, b]
  need ((← get).resolve cls a b = .numeric) { cause := cType }
  longBegin h cls a b p.outer.toNat
  modM h (fun x => x.keepLong p.fn.toNat a b (dat (p.outer.toNat * 2 ^ 32 + p.inner.toNat)))

/-- What a range operation leaves after the 64 KiB blocks it completed (R387). -/
def partRange (h : Hart) (p : Partial) : M Unit := do
  let (a, n) ← rangeArgs h p.ops
  let from_ := (← hartM h).rangeFrom p.fn.toNat a n
  let next := (from_ / 2 ^ 16 + p.outer.toNat) * 2 ^ 16
  need (decide (from_ < next) && decide (next < a.toNat + n)) { cause := cIllegal }
  rangeGo h p.fn.toNat a next (n / 2 ^ 16 + 2) from_
  modM h (fun x => x.suspendRange p.fn.toNat a (dat next))

/-- What a context save leaves after its completed steps (R129): SAVEU, SAVEL and CTXSW, past the checks each makes first. -/
def partSave (h : Hart) (p : Partial) : M Unit := do
  zeroField p.ops.rd
  zeroField p.ops.rt
  if p.fn = 0x18 then specsOk [p.ops.rs] else zeroField p.ops.rs
  needPriv h 1
  if p.fn = 0x18 then do
    let _ ← rawOf (← src h p.ops.rs)
  else pure ()
  contextOk h
  let area := (← hartM h).sprD 0x080
  areaOk area
  if p.fn = 0x18 then serialise h else pure ()
  savePart h area p.fn.toNat p.outer.toNat

/-- The progress of an operation that an event interrupts at one of its commit points. -/
def partOf (h : Hart) (p : Partial) : M Unit :=
  if 0x48 ≤ p.fn.toNat ∧ p.fn.toNat ≤ 0x4A then partRange h p
  else if 0x18 ≤ p.fn.toNat ∧ p.fn.toNat ≤ 0x1A then partSave h p
  else match bignumClass p.fn.toNat with
    | some cls => partBignum h p cls
    | none => raise { cause := cReserved }

/-- The instruction at a thread's PC is the one that a partial operation names (DEDUCED, log 64). -/
def Chip.partHere (c : Chip) (h : Hart) (p : Partial) : Bool :=
  let code := if 0x18 ≤ p.fn.toNat then encA 0x03 p.fn.toNat p.ops else encA 0x02 p.fn.toNat p.ops
  match fetchWord h (c.hart h).pc c with
  | .ok w _ => decide (w = code)
  | .error _ _ => false

/-- An event is accepted at the thread's boundary, or ends its wait (R181, R272, R276). -/
def Chip.acceptNext (c : Chip) (h : Hart) : Chip :=
  match c.acceptable h with
  | some e => ((c.modHart h (fun x => { x with run := .run })).accept h e).stepHalt h
  | none => if c.wakes h then (c.modHart h (fun x => { x with run := .run })).stepHalt h else c

/-- A routine stands at a commit point, where an event may be accepted (R234, R272). -/
def HartSt.atCommitPoint (x : HartSt) : Bool :=
  decide (x.run = .run) && x.wait.isNone && (match x.micro with | some m => m.atCommit | none => false)

/-- ASYNC_EVENT_ACCEPT (R276) (DEDUCED, log 64). -/
def Chip.asyncAccept (c : Chip) (h : Hart) (part : Option Partial) : Chip :=
  let x := c.hart h
  if c.hartDom h ≠ .on || !c.coreOk h then c
  else if x.atCommitPoint then (if (c.acceptable h).isSome && part.isNone then (c.abandon h).acceptNext h else c)
  else if !x.atBoundary then c
  else match part with
    | none => c.acceptNext h
    | some p =>
      if x.run = .run && !x.tramMode && (c.acceptable h).isSome && c.partHere h p then
        match partOf h p c with
        | .ok _ c' => if (c'.acceptable h).isSome then c'.acceptNext h else c'
        | .error _ _ => c
      else c
def execAsyncEventAccept (h : Hart) (part : Option Partial) (s : State) : Res := done s (s.chip.asyncAccept h part)

end Sys2Proof.Machine
end

