-- ==== Sys2Proof/Machine/Debug.lean ====
section
/-! DEFINITION. The requests of a debug session (R660–R667): Canary and snapshot reads, trace, halt and step, registers and
memory of halted threads, session comparators, and D3 access to the stores. -/
namespace Sys2Proof.Machine

/-- A request of a session of at least a class: refused with ERROR, and without effect, where it is outside its class or
where its action says so (R660); what it answers otherwise (DESIGN CHOICE, log 62). -/
def Chip.request (c : Chip) (s : Nat) (cls : Nat) (act : DbgSession → Option (Chip × List Datum)) : Chip :=
  match c.hdf.dbgs.find? (fun d => decide (d.id = s)) with
  | none => c.emit (.debugError s)
  | some d =>
    if d.cls.toNat < cls then c.emit (.debugError s)
    else match act d with
      | some (c', l) => c'.emit (.debug s l)
      | none => c.emit (.debugError s)

/-- A slice of a list of entries as words. -/
def entrySlice (l : List Entry) (start count : Nat) : List Datum := ((l.drop start).take count).flatMap Entry.words

/-- READ_LIVE (R660): entries of a live ring, oldest first; rings 0 to 7 the tiles, 8 the I/O die. -/
def Chip.readLive (c : Chip) (s ring start count : Nat) : Chip :=
  c.request s 1 (fun _ => if ring ≤ 8 then some (c, entrySlice (sget c.canary.rings ring []) start count) else none)
def execReadLive (q : Nat) (ring : BitVec 4) (start count : Nat) (s : State) : Res :=
  done s (s.chip.readLive q ring.toNat start count)

/-- READ_SNAPSHOT (R660): a valid slot's descriptor, or its entries in the layout of R657. -/
def Chip.readSnapshot (c : Chip) (s slot : Nat) (desc : Bool) (start count : Nat) : Chip :=
  c.request s 1 (fun _ => match c.canary.slots.lookup slot with
    | some d =>
      if !d.valid then none
      else some (c, if desc then d.descriptor else ((slotWords d.rings).drop (4 * start)).take (4 * count))
    | none => none)
def execReadSnapshot (q : Nat) (slot : BitVec 3) (desc : Bool) (start count : Nat) (s : State) : Res :=
  done s (s.chip.readSnapshot q slot.toNat desc start count)

/-- FREEZE of a session (R660): as CAN_SNAP_CMD FREEZE, refused while FROZEN (R659). -/
def execDebugFreeze (q : Nat) (s : State) : Res :=
  done s (s.chip.request q 1 (fun _ => if s.chip.canary.frozen then none else some (s.chip.freeze 5 0, [])))

/-- The trace registers. -/
def trcCtlAt : Nat := Blk.dbg.base 0 + 0x108
/-- Trace runs, or last ran, for a session's VMID; D3 has the module for its scope (R603). -/
def Chip.ownTrace (c : Chip) (d : DbgSession) : Bool := d.cls = 3 || decide (c.rf trcCtlAt 11 0 = d.vmid.toNat)

/-- TRACE_START (R660, R666): EN for the session's VMID; refused while another partition is traced (DESIGN CHOICE, log 62). -/
def Chip.traceStart (c : Chip) (s : Nat) : Chip :=
  c.request s 1 (fun d =>
    if bit (c.reg trcCtlAt) 63 && !c.ownTrace d then none
    else
      let c := if d.cls = 3 then c else c.setRf trcCtlAt 11 0 d.vmid.toNat
      some (c.setRf trcCtlAt 63 63 1, []))
def execTraceStart (q : Nat) (s : State) : Res := done s (s.chip.traceStart q)
/-- TRACE_STOP (R660, R667). -/
def Chip.traceStop (c : Chip) (s : Nat) : Chip :=
  c.request s 1 (fun d => if c.ownTrace d then some (c.setRf trcCtlAt 63 63 0, []) else none)
def execTraceStop (q : Nat) (s : State) : Res := done s (s.chip.traceStop q)

/-- Records the trace buffer holds (R667). -/
def Chip.trcRoom (c : Chip) : Nat := 2 ^ c.rf (Blk.dbg.base 0 + 0x100) 57 52 * 2048
/-- READ_TRACE (R660): written records of the session's partition, by their place in the buffer (DESIGN CHOICE, log 62). -/
def Chip.readTrace (c : Chip) (s start count : Nat) : Chip :=
  c.request s 1 (fun d =>
    let n := min c.trcRoom (c.rf (Blk.dbg.base 0 + 0x110) 31 0)
    if !c.ownTrace d || decide (start + count > n) then none
    else
      let a := c.rf (Blk.dbg.base 0 + 0x100) 51 16 * 2 ^ 16
      match c.rawWords (wordsFrom (a + 32 * start) (4 * count)) with
      | (c', some l) => some (c', l)
      | (_, none) => none)
def execReadTrace (q start count : Nat) (s : State) : Res := done s (s.chip.readTrace q start count)

/-- A thread is in a session's scope, in a cluster where it is not suspended (R606, R610). -/
def Chip.inScope (c : Chip) (d : DbgSession) (h : Hart) : Bool :=
  d.covers h (c.hart h) && !d.susp.getLsbD (clusterOf h).toNat && decide ((c.hart h).run ≠ .off)

/-- HALT (R661): the thread halts at its next boundary. -/
def Chip.haltAsk (c : Chip) (s : Nat) (h : Hart) : Chip :=
  c.request s 2 (fun d => if c.inScope d h then
    some (if (c.hart h).run = .dbg then c else c.modHart h (fun x => { x with haltReq := true }), []) else none)
def execHalt (q : Nat) (h : Hart) (s : State) : Res := done s (s.chip.haltAsk q h)

/-- A requested halt takes effect (R661): between instructions, or at a commit point with the routine kept. -/
def Chip.haltTakes (c : Chip) (h : Hart) : Chip :=
  let x := c.hart h
  if (x.atBoundary || x.atCommitPoint) && c.haltDue h then c.modHart h HartSt.dbgHalt else c
def execHaltTakesEffect (h : Hart) (s : State) : Res := done s (s.chip.haltTakes h)

/-- RESUME (R660): the instruction resumed at matches no session comparator (R665) (DESIGN CHOICE, log 62). -/
def Chip.debugResume (c : Chip) (s : Nat) (h : Hart) : Chip :=
  c.request s 2 (fun d =>
    if !c.inScope d h then none
    else if (c.hart h).run = .dbg then some (c.modHart h (fun x => { x.dbgResume with dbgSkip := true }), [])
    else some (c.modHart h (fun x => { x with haltReq := false }), []))
def execDebugResume (q : Nat) (h : Hart) (s : State) : Res := done s (s.chip.debugResume q h)

/-- STEP (R662): the thread goes on to its next boundary; an event due where it is halted is accepted instead. -/
def Chip.debugStep (c : Chip) (h : Hart) : Chip :=
  let c := c.modHart h (fun x => { x with run := x.dbgBefore, haltReq := false, dbgStep := true, dbgSkip := true })
  if (c.acceptable h).isSome then (if (c.hart h).micro.isSome then c.abandon h else c).acceptNext h else c
def Chip.stepAsk (c : Chip) (s : Nat) (h : Hart) : Chip :=
  c.request s 2 (fun d => if c.inScope d h && decide ((c.hart h).run = .dbg) then some (c.debugStep h, []) else none)
def execStep (q : Nat) (h : Hart) (s : State) : Res := done s (s.chip.stepAsk q h)

/-- A thread that executes nothing: halted by a session, by R309, or for a power event. -/
def HartSt.still (x : HartSt) : Bool :=
  match x.run with | .dbg | .halted | .stopped => true | _ => false

/-- The value READ_REG returns (R663) (DESIGN CHOICE, log 62). -/
def regRead (h : Hart) : DbgReg → M Word
  | .spec r => do
    specsOk [r]
    readSpec h r
  | .preg i => do
    need (decide (i < 418)) { cause := cIllegal }
    readPreg h i
  | .spr n => do
    need (sprPriv n.toNat).isSome { cause := cIllegal }
    sprValue h n.toNat
  | .pc => do pure (wCode (← hartM h).pc)
  | .ldinfo => do pure (.raw (ldinfo (← hartM h).landings))
  | .landv0 => do pure (((← hartM h).landings[0]?.map (·.word)).getD (.raw 0))
  | .landv1 => do pure (((← hartM h).landings[1]?.map (·.word)).getD (.raw 0))
/-- A word in an answer: its tag and datum, but that the datum of POISON goes to no host (R78): what stands there instead is open
(DESIGN CHOICE, log 62). -/
def Chip.debugWord (c : Chip) (w : Word) : Chip × List Datum :=
  if isPoison w then (c.tick, [dat w.tag.toNat, Config.freeDatum c.fresh]) else (c, [dat w.tag.toNat, w.dat])
/-- READ_REG (R663). A lazy load that the read needs, and that fails, answers the error alone: no thread escalates
(DESIGN CHOICE, log 78). -/
def Chip.readRegAsk (c : Chip) (s : Nat) (h : Hart) (r : DbgReg) : Chip :=
  c.request s 2 (fun d =>
    if c.inScope d h && (c.hart h).still then
      match regRead h r c with
      | .ok w c' => some (c'.debugWord w)
      | .error _ _ => none
    else none)
def execReadReg (q : Nat) (h : Hart) (reg : DbgReg) (s : State) : Res := done s (s.chip.readRegAsk q h reg)

/-- A special register written for a session: at S under D2, at H under D3; the thread's own PRIV stands but where PSTATE is
written (R663). -/
def sprDebug (h : Hart) (n : Nat) (w : Word) (cls : Nat) : M Unit := do
  let p := (← hartM h).priv
  let setPriv := fun (v : Nat) => modM h (fun x => x.setSpr 0x000 (setFld x.pstate 1 0 v))
  setPriv (if cls = 3 then 3 else 1)
  sprWritable h n
  let _ ← sprAct h n w
  if n = 0x000 then pure () else setPriv p
/-- The write WRITE_REG makes (R663) (DESIGN CHOICE, log 62). -/
def regWrite (h : Hart) (cls : Nat) (w : Word) : DbgReg → M Unit
  | .spec r => do
    specsOk [r]
    writeSpec h r w
  | .preg i => do
    need (decide (i < 418) && !(decide (i ≥ 416) && isPoison w)) { cause := cIllegal }
    lazyPreg h i
    modM h (fun x => x.putPreg i w)
  | .spr n => sprDebug h n.toNat w cls
  | .pc => modM h (fun x => { x with pc := pcForm w.dat })
  | _ => raise { cause := cIllegal }
/-- WRITE_REG (R663); a lazy load that fails answers as in READ_REG (DESIGN CHOICE, log 78). -/
def Chip.writeRegAsk (c : Chip) (s : Nat) (h : Hart) (r : DbgReg) (w : Word) : Chip :=
  c.request s 2 (fun d =>
    if c.inScope d h && (c.hart h).still && c.producible w then
      match regWrite h d.cls.toNat w r c with
      | .ok _ c' => some (c', [])
      | .error _ _ => none
    else none)
def execWriteReg (q : Nat) (h : Hart) (reg : DbgReg) (w : Word) (s : State) : Res := done s (s.chip.writeRegAsk q h reg w)

/-- READ_MEM (R660): as `LDW` of the halted thread, or physical at D3 (DESIGN CHOICE, log 62). -/
def memRead (h : Hart) (cls : Nat) (a : Datum) : M Word :=
  if cls = 3 then do
    need (decide (a.toNat % 8 = 0)) { cause := cAlign }
    need (decide ((← get).region a.toNat = .dram)) { cause := cIllegal }
    readAt h { pa := a.toNat }
  else loadWord h a
def Chip.readMemAsk (c : Chip) (s : Nat) (h : Hart) (a : Datum) : Chip :=
  c.request s 2 (fun d =>
    if d.cls = 3 || (c.inScope d h && (c.hart h).still) then
      match memRead h d.cls.toNat a c with
      | .ok w c' => some (c'.debugWord w)
      | .error _ _ => none
    else none)
def execReadMem (q : Nat) (h : Hart) (a : BitVec 64) (s : State) : Res := done s (s.chip.readMemAsk q h a)

/-- WRITE_MEM (R660): as `STW` of the halted thread, or physical at D3. -/
def memWrite (h : Hart) (cls : Nat) (a : Datum) (w : Word) : M Unit :=
  if cls = 3 then do
    need (decide (a.toNat % 8 = 0)) { cause := cAlign }
    need (decide ((← get).region a.toNat = .dram)) { cause := cIllegal }
    modify (fun c => c.agentWrite (wordCells a.toNat w))
  else storeWord h a w
def Chip.writeMemAsk (c : Chip) (s : Nat) (h : Hart) (a : Datum) (w : Word) : Chip :=
  c.request s 2 (fun d =>
    if (d.cls = 3 && c.producible w) || (c.inScope d h && (c.hart h).still) then
      match memWrite h d.cls.toNat a w c with
      | .ok _ c' => some (c', [])
      | .error _ _ => none
    else none)
def execWriteMem (q : Nat) (h : Hart) (a : BitVec 64) (w : Word) (s : State) : Res := done s (s.chip.writeMemAsk q h a w)

/-- SET_BP (R665): an instruction comparator, in the format of DBG_BP. -/
def Chip.setBpAsk (c : Chip) (s : Nat) (h : Hart) (k : Nat) (v : Datum) : Chip :=
  c.request s 2 (fun d => if c.inScope d h then
    some (c.modHart h (fun x => { x with sbp := sset x.sbp (4 * d.id + k) (v &&& sprMask 0x140) 0 }), []) else none)
def execSetBp (q : Nat) (h : Hart) (k : BitVec 2) (v : BitVec 64) (s : State) : Res := done s (s.chip.setBpAsk q h k.toNat v)
/-- SET_WP (R665): a data comparator, in the format of DBG_WP. -/
def Chip.setWpAsk (c : Chip) (s : Nat) (h : Hart) (k : Nat) (v : Datum) : Chip :=
  c.request s 2 (fun d => if c.inScope d h then
    some (c.modHart h (fun x => { x with swp := sset x.swp (2 * d.id + k) (v &&& sprMask 0x144) 0 }), []) else none)
def execSetWp (q : Nat) (h : Hart) (k : Bool) (v : BitVec 64) (s : State) : Res := done s (s.chip.setWpAsk q h (b2n k) v)

/-- A microword of a cluster's control store (R220): ROM, patch RAM or Blend store (DESIGN CHOICE, log 5). -/
def Chip.storeWord (c : Chip) (k ua : Nat) : BitVec 144 :=
  if ua < 0x3000 then Config.vendorRom (BitVec.ofNat 14 ua)
  else if ua < 0x3800 then (c.patch.lookup ua).getD (Config.patchImage ua)
  else c.blendWord k ua
/-- The words of 64 bits of a stored word. -/
def lanes (w : BitVec 144) : List Datum := [w.extractLsb' 0 64, w.extractLsb' 64 64, (w.extractLsb' 128 16).zeroExtend 64]

/-- D3_ACCESS to the stores (R660); the ROM is never written (R220) (DEDUCED, log 53). -/
def Chip.d3Store (c : Chip) (t : D3Target) (wr : Option (BitVec 144)) : Option (Chip × List Datum) :=
  match t, wr with
  | .controlStore k ua, none => some (c, lanes (c.storeWord k.toNat ua.toNat))
  | .controlStore k ua, some w =>
    if ua.toNat < 0x3000 then none
    else if ua.toNat < 0x3800 then some ({ c with patch := sput ua.toNat w c.patch }, [])
    else some ({ c with blend := sset c.blend (k.toNat * 2 ^ 14 + ua.toNat) w 0 }, [])
  | .matchEntry i, none =>
    some (c, [(c.matchEntry i.toNat).zeroExtend 64])
  | .matchEntry i, some w => some ({ c with matchTable := sput i.toNat (w.setWidth 29) c.matchTable }, [])
  | .unitStore e i, none =>
    if i < unitSize e.toNat then
      let key := e.toNat * 2 ^ 16 + i
      some (c, (lanes (((c.unitStores.lookup key).getD (Config.unitImage key)).zeroExtend 144)).take 2)
    else none
  | .unitStore e i, some w =>
    if i < unitSize e.toNat then some ({ c with unitStores := sput (e.toNat * 2 ^ 16 + i) (w.setWidth 128) c.unitStores }, [])
    else none
  | _, _ => some (c.tick, [Config.freeDatum c.fresh])

/-- A D3 session asks to write what the manual gives no contents of: the Headframe's state, or a scan chain (R603, R660)
(DESIGN CHOICE, log 66). -/
def Chip.writesInternals (c : Chip) (s : Nat) (t : D3Target) (wr : Option (BitVec 144)) : Bool :=
  (t = .headframe || t = .scan) && wr.isSome && c.hdf.dbgs.any (fun d => decide (d.id = s) && d.cls = 3)
/-- D3_ACCESS (R660): what a read of the Headframe or of a scan chain returns is left open; a write there stops. -/
def execD3Access (q : Nat) (t : D3Target) (wr : Option (BitVec 144)) (s : State) : Res :=
  if s.chip.writesInternals q t wr then .refused .headframeInternals
  else done s (s.chip.request q 3 (fun _ => s.chip.d3Store t wr))

end Sys2Proof.Machine
end

