-- ==== Sys2Proof/Machine/Jtag.lean ====
section
/-! DEFINITION. The test access port (R668, R669). -/
namespace Sys2Proof.Machine

/-- IDCODE of the B1 stepping: version 5, part 0x0909, the manufacturer's identity, and 1 (R669). -/
def idcodeWord : BitVec 32 := (5 : BitVec 4) ++ (0x0909 : BitVec 16) ++ Config.manufacturerId ++ (1 : BitVec 1)

/-- Select a TAP instruction (R668): none in OFF; BYPASS, whose register captures 0, where it is not available
(PRESUMED, log 63). -/
def Chip.tapSelect (c : Chip) (ok : Bool) (f : Tap → Tap) : Chip :=
  if c.mode = .off then c
  else { c with tap := if ok then f c.tap else { c.tap with ir := 0xFF, dr := 0 } }

/-- IDCODE (R669). -/
def execIdcode (s : State) : Res := done s (s.chip.tapSelect true (fun t => { t with ir := 1, dr := idcodeWord }))
/-- SAMPLE/PRELOAD (R668): the cells shifted in are held for EXTEST; the levels captured are those of pins outside. -/
def execSamplePreload (pins : BitVec 32) (s : State) : Res :=
  let v := (Config.freeDatum s.chip.fresh).setWidth 32
  done s (s.chip.tick.tapSelect true (fun t => { t with ir := 2, cells := v, preload := pins, dr := v }))
/-- EXTEST (R668): outputs driven from the preloaded cells, the levels at the pins captured. -/
def execExtest (pins : BitVec 32) (s : State) : Res :=
  done s (s.chip.tapSelect (s.chip.mode = .standby) (fun t => { t with ir := 3, cells := pins, dr := pins }))
/-- CLAMP (R668): outputs held from the preloaded cells. -/
def execClamp (s : State) : Res := done s (s.chip.tapSelect (s.chip.mode = .standby) (fun t => { t with ir := 4, dr := 0 }))
/-- HIGHZ (R668): outputs float. -/
def execHighz (s : State) : Res := done s (s.chip.tapSelect (s.chip.mode = .standby) (fun t => { t with ir := 5, dr := 0 }))
/-- A code that R668 assigns an instruction of its own. -/
def tapAssigned (code : Byte) : Bool := (decide (1 ≤ code.toNat) && decide (code.toNat ≤ 5)) ||
  (decide (0x80 ≤ code.toNat) && decide (code.toNat ≤ 0xFE))
/-- BYPASS (R668), by its own code or by a reserved one. -/
def execBypass (code : BitVec 8) (s : State) : Res :=
  if tapAssigned code then done s s.chip else done s (s.chip.tapSelect false id)
/-- TAP_PRIVATE (R668): while a D3 session exists. What its register holds is left open. -/
def execTapPrivate (code : BitVec 8) (s : State) : Res :=
  if code.toNat < 0x80 || code = 0xFF then done s s.chip
  else
    let v := (Config.freeDatum s.chip.fresh).setWidth 32
    done s (s.chip.tick.tapSelect (s.chip.hdf.dbgs.any (fun d => d.cls = 3)) (fun t => { t with ir := code, dr := v }))
/-- TAP_RESET (R668): IDCODE is selected. -/
def execTapReset (s : State) : Res := done s (s.chip.tapSelect true (fun t => { t with ir := 1, dr := idcodeWord }))

end Sys2Proof.Machine
end

