-- ==== Sys2Proof/Machine/Dispatch.lean ====
section
/-! DEFINITION. One arm per command: its mnemonic's meaning, or a refusal by name. -/
namespace Sys2Proof.Machine

def exec (i : Instr) (s : State) : Host.Outcome State Fault Refusal :=
  match i with
  | .add h o => Sys2Proof.Machine.execAdd h o s
  | .sub h o => Sys2Proof.Machine.execSub h o s
  | .mul h o => Sys2Proof.Machine.execMul h o s
  | .mulh h o => Sys2Proof.Machine.execMulh h o s
  | .div h o => Sys2Proof.Machine.execDiv h o s
  | .rem h o => Sys2Proof.Machine.execRem h o s
  | .and h o => Sys2Proof.Machine.execAnd h o s
  | .or h o => Sys2Proof.Machine.execOr h o s
  | .xor h o => Sys2Proof.Machine.execXor h o s
  | .shl h o => Sys2Proof.Machine.execShl h o s
  | .shr h o => Sys2Proof.Machine.execShr h o s
  | .sar h o => Sys2Proof.Machine.execSar h o s
  | .clz h o => Sys2Proof.Machine.execClz h o s
  | .ctz h o => Sys2Proof.Machine.execCtz h o s
  | .popc h o => Sys2Proof.Machine.execPopc h o s
  | .bfx h o => Sys2Proof.Machine.execBfx h o s
  | .bfi h o => Sys2Proof.Machine.execBfi h o s
  | .bperm h o => Sys2Proof.Machine.execBperm h o s
  | .cmp h o => Sys2Proof.Machine.execCmp h o s
  | .addi h o => Sys2Proof.Machine.execAddi h o s
  | .andi h o => Sys2Proof.Machine.execAndi h o s
  | .ori h o => Sys2Proof.Machine.execOri h o s
  | .xori h o => Sys2Proof.Machine.execXori h o s
  | .shli h o => Sys2Proof.Machine.execShli h o s
  | .shri h o => Sys2Proof.Machine.execShri h o s
  | .sari h o => Sys2Proof.Machine.execSari h o s
  | .shori h o => Sys2Proof.Machine.execShori h o s
  | .cmpi h o => Sys2Proof.Machine.execCmpi h o s
  | .tagchk h o => Sys2Proof.Machine.execTagchk h o s
  | .fadd h o => Sys2Proof.Machine.execFadd h o s
  | .fsub h o => Sys2Proof.Machine.execFsub h o s
  | .fmul h o => Sys2Proof.Machine.execFmul h o s
  | .fdiv h o => Sys2Proof.Machine.execFdiv h o s
  | .fma h o => Sys2Proof.Machine.execFma h o s
  | .fcvtIf h o => Sys2Proof.Machine.execFcvtIf h o s
  | .fcvtFi h o => Sys2Proof.Machine.execFcvtFi h o s
  | .fcvtFn h o => Sys2Proof.Machine.execFcvtFn h o s
  | .fcvtBf h o => Sys2Proof.Machine.execFcvtBf h o s
  | .fcmp h o => Sys2Proof.Machine.execFcmp h o s
  | .gadd h o => Sys2Proof.Machine.execGadd h o s
  | .gsub h o => Sys2Proof.Machine.execGsub h o s
  | .gmul h o => Sys2Proof.Machine.execGmul h o s
  | .gdiv h o => Sys2Proof.Machine.execGdiv h o s
  | .gneg h o => Sys2Proof.Machine.execGneg h o s
  | .gash h o => Sys2Proof.Machine.execGash h o s
  | .glt h o => Sys2Proof.Machine.execGlt h o s
  | .gle h o => Sys2Proof.Machine.execGle h o s
  | .geq h o => Sys2Proof.Machine.execGeq h o s
  | .eq h o => Sys2Proof.Machine.execEq h o s
  | .car h o => Sys2Proof.Machine.execCar h o s
  | .cdr h o => Sys2Proof.Machine.execCdr h o s
  | .rplaca h o => Sys2Proof.Machine.execRplaca h o s
  | .rplacd h o => Sys2Proof.Machine.execRplacd h o s
  | .cons h o => Sys2Proof.Machine.execCons h o s
  | .getv h o => Sys2Proof.Machine.execGetv h o s
  | .setv h o => Sys2Proof.Machine.execSetv h o s
  | .typeof h o => Sys2Proof.Machine.execTypeof h o s
  | .mkfix h o => Sys2Proof.Machine.execMkfix h o s
  | .unbox h o => Sys2Proof.Machine.execUnbox h o s
  | .tagset h o => Sys2Proof.Machine.execTagset h o s
  | .fenceL h o => Sys2Proof.Machine.execFenceL h o s
  | .fenceS h o => Sys2Proof.Machine.execFenceS h o s
  | .fenceLs h o => Sys2Proof.Machine.execFenceLs h o s
  | .fenceG h o => Sys2Proof.Machine.execFenceG h o s
  | .cleanByAddress h o => Sys2Proof.Machine.execCleanByAddress h o s
  | .invalidateByAddress h o => Sys2Proof.Machine.execInvalidateByAddress h o s
  | .cleanInvalidateByAddress h o => Sys2Proof.Machine.execCleanInvalidateByAddress h o s
  | .cleanBySetWay h o => Sys2Proof.Machine.execCleanBySetWay h o s
  | .invalidateBySetWay h o => Sys2Proof.Machine.execInvalidateBySetWay h o s
  | .cleanInvalidateBySetWay h o => Sys2Proof.Machine.execCleanInvalidateBySetWay h o s
  | .cleanByRange h o => Sys2Proof.Machine.execCleanByRange h o s
  | .invalidateByRange h o => Sys2Proof.Machine.execInvalidateByRange h o s
  | .cleanInvalidateByRange h o => Sys2Proof.Machine.execCleanInvalidateByRange h o s
  | .ldw h o => Sys2Proof.Machine.execLdw h o s
  | .stw h o => Sys2Proof.Machine.execStw h o s
  | .ldd h o => Sys2Proof.Machine.execLdd h o s
  | .std h o => Sys2Proof.Machine.execStd h o s
  | .ldb h o => Sys2Proof.Machine.execLdb h o s
  | .ldh h o => Sys2Proof.Machine.execLdh h o s
  | .ldq h o => Sys2Proof.Machine.execLdq h o s
  | .stb h o => Sys2Proof.Machine.execStb h o s
  | .sth h o => Sys2Proof.Machine.execSth h o s
  | .stq h o => Sys2Proof.Machine.execStq h o s
  | .stcode h o => Sys2Proof.Machine.execStcode h o s
  | .ldrsv h o => Sys2Proof.Machine.execLdrsv h o s
  | .stcnd h o => Sys2Proof.Machine.execStcnd h o s
  | .tas h o => Sys2Proof.Machine.execTas h o s
  | .loadLanding h => Sys2Proof.Machine.execLoadLanding h s
  | .tubld h o => Sys2Proof.Machine.execTubld h o s
  | .tubEntryArrival h slot => Sys2Proof.Machine.execTubEntryArrival h slot s
  | .tubpop h o => Sys2Proof.Machine.execTubpop h o s
  | .tubcnt h o => Sys2Proof.Machine.execTubcnt h o s
  | .afadd h o tub noret mode => Sys2Proof.Machine.execAfadd h o tub noret mode s
  | .acas h o tub noret mode => Sys2Proof.Machine.execAcas h o tub noret mode s
  | .axchg h o tub noret mode => Sys2Proof.Machine.execAxchg h o tub noret mode s
  | .aor h o tub noret mode => Sys2Proof.Machine.execAor h o tub noret mode s
  | .abump h o tub noret mode => Sys2Proof.Machine.execAbump h o tub noret mode s
  | .awalk h o tub noret mode => Sys2Proof.Machine.execAwalk h o tub noret mode s
  | .stopeRequest idx => Sys2Proof.Machine.execStopeRequest idx s
  | .walkForward idx => Sys2Proof.Machine.execWalkForward idx s
  | .stopeResult idx => Sys2Proof.Machine.execStopeResult idx s
  | .gld h o => Sys2Proof.Machine.execGld h o s
  | .gst h o => Sys2Proof.Machine.execGst h o s
  | .gamoFadd h o tub => Sys2Proof.Machine.execGamoFadd h o tub s
  | .gamoCas h o tub => Sys2Proof.Machine.execGamoCas h o tub s
  | .gamoXchg h o tub => Sys2Proof.Machine.execGamoXchg h o tub s
  | .gamoOr h o tub => Sys2Proof.Machine.execGamoOr h o tub s
  | .send h o n => Sys2Proof.Machine.execSend h o n s
  | .br h cond disp => Sys2Proof.Machine.execBr h cond disp s
  | .call h cond disp => Sys2Proof.Machine.execCall h cond disp s
  | .callReg h o => Sys2Proof.Machine.execCallReg h o s
  | .ret h o => Sys2Proof.Machine.execRet h o s
  | .jmpl h o => Sys2Proof.Machine.execJmpl h o s
  | .syscall h o => Sys2Proof.Machine.execSyscall h o s
  | .sysret h o => Sys2Proof.Machine.execSysret h o s
  | .eret h o => Sys2Proof.Machine.execEret h o s
  | .trap h o => Sys2Proof.Machine.execTrap h o s
  | .waitt h o => Sys2Proof.Machine.execWaitt h o s
  | .waittComplete h => Sys2Proof.Machine.execWaittComplete h s
  | .wfi h o => Sys2Proof.Machine.execWfi h o s
  | .lsetup h o => Sys2Proof.Machine.execLsetup h o s
  | .rep h o => Sys2Proof.Machine.execRep h o s
  | .repRepetition h => Sys2Proof.Machine.execRepRepetition h s
  | .saveu h o => Sys2Proof.Machine.execSaveu h o s
  | .savel h o => Sys2Proof.Machine.execSavel h o s
  | .rstru h o => Sys2Proof.Machine.execRstru h o s
  | .rstrl h o => Sys2Proof.Machine.execRstrl h o s
  | .ctxsw h o => Sys2Proof.Machine.execCtxsw h o s
  | .rdspr h o => Sys2Proof.Machine.execRdspr h o s
  | .wrspr h o => Sys2Proof.Machine.execWrspr h o s
  | .ctxLinkWrite h rs => Sys2Proof.Machine.execCtxLinkWrite h rs s
  | .timerCmpArm h rs => Sys2Proof.Machine.execTimerCmpArm h rs s
  | .timerCmpExpiry h => Sys2Proof.Machine.execTimerCmpExpiry h s
  | .hostsig h rs => Sys2Proof.Machine.execHostsig h rs s
  | .tlbiVaAsid h rs => Sys2Proof.Machine.execTlbiVaAsid h rs s
  | .tlbiVaAllAsid h rs => Sys2Proof.Machine.execTlbiVaAllAsid h rs s
  | .tlbiAsid h rs => Sys2Proof.Machine.execTlbiAsid h rs s
  | .tlbiStage1 h rs => Sys2Proof.Machine.execTlbiStage1 h rs s
  | .tlbiIpa h rs => Sys2Proof.Machine.execTlbiIpa h rs s
  | .tlbiVmid h rs => Sys2Proof.Machine.execTlbiVmid h rs s
  | .tlbiHVa h rs => Sys2Proof.Machine.execTlbiHVa h rs s
  | .tlbiHAll h rs => Sys2Proof.Machine.execTlbiHAll h rs s
  | .tlbiAll h rs => Sys2Proof.Machine.execTlbiAll h rs s
  | .arrive h rs => Sys2Proof.Machine.execArrive h rs s
  | .alert h rs => Sys2Proof.Machine.execAlert h rs s
  | .blend h o sel => Sys2Proof.Machine.execBlend h o sel s
  | .tramMove h dst src low => Sys2Proof.Machine.execTramMove h dst src low s
  | .tramImmediate h dst imm => Sys2Proof.Machine.execTramImmediate h dst imm s
  | .seqReject h => Sys2Proof.Machine.execSeqReject h s
  | .seqNext h => Sys2Proof.Machine.execSeqNext h s
  | .seqJump h => Sys2Proof.Machine.execSeqJump h s
  | .seqCjump h => Sys2Proof.Machine.execSeqCjump h s
  | .seqCall h => Sys2Proof.Machine.execSeqCall h s
  | .seqReturn h => Sys2Proof.Machine.execSeqReturn h s
  | .seqTdisp h => Sys2Proof.Machine.execSeqTdisp h s
  | .seqCommit h => Sys2Proof.Machine.execSeqCommit h s
  | .seqEnd h => Sys2Proof.Machine.execSeqEnd h s
  | .seqFail h => Sys2Proof.Machine.execSeqFail h s
  | .seqWait q w => Sys2Proof.Machine.execSeqWait q w s
  | .unitWaitExpiry q => Sys2Proof.Machine.execUnitWaitExpiry q s
  | .asyncEventAccept h part => Sys2Proof.Machine.execAsyncEventAccept h part s
  | .storeFailure core slot => Sys2Proof.Machine.execStoreFailure core slot s
  | .softInterruptSet h rs => Sys2Proof.Machine.execSoftInterruptSet h rs s
  | .cluIpi who k v => Sys2Proof.Machine.execCluIpi who k v s
  | .coreSparing core stallNs => Sys2Proof.Machine.execCoreSparing core stallNs s
  | .coreLost core => Sys2Proof.Machine.execCoreLost core s
  | .controllerFailed m => Sys2Proof.Machine.execControllerFailed m s
  | .patrolScrub m => Sys2Proof.Machine.execPatrolScrub m s
  | .sramScrub => Sys2Proof.Machine.execSramScrub s
  | .clear who m v => Sys2Proof.Machine.execClear who m v s
  | .retag who m v => Sys2Proof.Machine.execRetag who m v s
  | .fastClearComplete m => Sys2Proof.Machine.execFastClearComplete m s
  | .contextEnable who c v => Sys2Proof.Machine.execContextEnable who c v s
  | .planesCleared c => Sys2Proof.Machine.execPlanesCleared c s
  | .start who c v => Sys2Proof.Machine.execStart who c v s
  | .relocate who c v => Sys2Proof.Machine.execRelocate who c v s
  | .armedFlip c => Sys2Proof.Machine.execArmedFlip c s
  | .flipAnnouncement c k => Sys2Proof.Machine.execFlipAnnouncement c k s
  | .threadSweep h => Sys2Proof.Machine.execThreadSweep h s
  | .flipAcknowledgement c k => Sys2Proof.Machine.execFlipAcknowledgement c k s
  | .healRequest c w a => Sys2Proof.Machine.execHealRequest c w a s
  | .objectCopy c p => Sys2Proof.Machine.execObjectCopy c p s
  | .traceTerminationRound c => Sys2Proof.Machine.execTraceTerminationRound c s
  | .alloc who c v => Sys2Proof.Machine.execAlloc who c v s
  | .retire who c v => Sys2Proof.Machine.execRetire who c v s
  | .pin who c v => Sys2Proof.Machine.execPin who c v s
  | .unpin who c v => Sys2Proof.Machine.execUnpin who c v s
  | .release who c v => Sys2Proof.Machine.execRelease who c v s
  | .setgen who c v => Sys2Proof.Machine.execSetgen who c v s
  | .cageMessageMerge idx rail => Sys2Proof.Machine.execCageMessageMerge idx rail s
  | .roundResultDelivery g => Sys2Proof.Machine.execRoundResultDelivery g s
  | .cageIrq h g => Sys2Proof.Machine.execCageIrq h g s
  | .tokenRefill src => Sys2Proof.Machine.execTokenRefill src s
  | .railFailed rail why => Sys2Proof.Machine.execRailFailed rail why s
  | .dataFrame p f => Sys2Proof.Machine.execDataFrame p f s
  | .ack p f => Sys2Proof.Machine.execAck p f s
  | .syn p f => Sys2Proof.Machine.execSyn p f s
  | .synAck p f => Sys2Proof.Machine.execSynAck p f s
  | .probe p f => Sys2Proof.Machine.execProbe p f s
  | .probeAck p f => Sys2Proof.Machine.execProbeAck p f s
  | .planeProbe node plane => Sys2Proof.Machine.execPlaneProbe node plane s
  | .retransmit node cage seq => Sys2Proof.Machine.execRetransmit node cage seq s
  | .peerUnreachable node => Sys2Proof.Machine.execPeerUnreachable node s
  | .portLinkDown p => Sys2Proof.Machine.execPortLinkDown p s
  | .portFailed p => Sys2Proof.Machine.execPortFailed p s
  | .gldRecord idx => Sys2Proof.Machine.execGldRecord idx s
  | .gstRecord idx => Sys2Proof.Machine.execGstRecord idx s
  | .gamoRecord idx => Sys2Proof.Machine.execGamoRecord idx s
  | .sendRecord idx => Sys2Proof.Machine.execSendRecord idx s
  | .markRecord idx => Sys2Proof.Machine.execMarkRecord idx s
  | .flipAck idx => Sys2Proof.Machine.execFlipAck idx s
  | .flipConf idx => Sys2Proof.Machine.execFlipConf idx s
  | .termQuery idx => Sys2Proof.Machine.execTermQuery idx s
  | .remoteResponse idx => Sys2Proof.Machine.execRemoteResponse idx s
  | .roleChange who q v => Sys2Proof.Machine.execRoleChange who q v s
  | .peerEnable who v => Sys2Proof.Machine.execPeerEnable who v s
  | .peerDisable who v => Sys2Proof.Machine.execPeerDisable who v s
  | .peerReset who v => Sys2Proof.Machine.execPeerReset who v s
  | .setplanes who v => Sys2Proof.Machine.execSetplanes who v s
  | .driftDisable who v => Sys2Proof.Machine.execDriftDisable who v s
  | .ptpMessage p msg => Sys2Proof.Machine.execPtpMessage p msg s
  | .ppsInEdge rising => Sys2Proof.Machine.execPpsInEdge rising s
  | .holdoverEntry => Sys2Proof.Machine.execHoldoverEntry s
  | .hostDatumWrite q bytes => Sys2Proof.Machine.execHostDatumWrite q bytes s
  | .hostDatumRead q len => Sys2Proof.Machine.execHostDatumRead q len s
  | .hostTagApertureAccess q wr len => Sys2Proof.Machine.execHostTagApertureAccess q wr len s
  | .hostRegisterAccess q size wr => Sys2Proof.Machine.execHostRegisterAccess q size wr s
  | .pciReset kind => Sys2Proof.Machine.execPciReset kind s
  | .dmaDoorbell who q v => Sys2Proof.Machine.execDmaDoorbell who q v s
  | .dmaQueueEnable who q v => Sys2Proof.Machine.execDmaQueueEnable who q v s
  | .dmaNop q => Sys2Proof.Machine.execDmaNop q s
  | .hostToModule q => Sys2Proof.Machine.execHostToModule q s
  | .moduleToHost q => Sys2Proof.Machine.execModuleToHost q s
  | .dmaHostCompletion q status data => Sys2Proof.Machine.execDmaHostCompletion q status data s
  | .doeRequest proto obj => Sys2Proof.Machine.execDoeRequest proto obj s
  | .getVersion p => Sys2Proof.Machine.execGetVersion p s
  | .getCapabilities p => Sys2Proof.Machine.execGetCapabilities p s
  | .negotiateAlgorithms p => Sys2Proof.Machine.execNegotiateAlgorithms p s
  | .getDigests p => Sys2Proof.Machine.execGetDigests p s
  | .getCertificate p slot off len => Sys2Proof.Machine.execGetCertificate p slot off len s
  | .challenge p slot nonce => Sys2Proof.Machine.execChallenge p slot nonce s
  | .getMeasurements p index sig nonce => Sys2Proof.Machine.execGetMeasurements p index sig nonce s
  | .keyExchange p slot exchange => Sys2Proof.Machine.execKeyExchange p slot exchange s
  | .finish p verify => Sys2Proof.Machine.execFinish p verify s
  | .endSession p => Sys2Proof.Machine.execEndSession p s
  | .heartbeat p => Sys2Proof.Machine.execHeartbeat p s
  | .keyUpdate p op => Sys2Proof.Machine.execKeyUpdate p op s
  | .ideKm p stream keySet key => Sys2Proof.Machine.execIdeKm p stream keySet key s
  | .ideFailure stream => Sys2Proof.Machine.execIdeFailure stream s
  | .nonceRequest p => Sys2Proof.Machine.execNonceRequest p s
  | .nonceExpiry idx => Sys2Proof.Machine.execNonceExpiry idx s
  | .debugToken p tok => Sys2Proof.Machine.execDebugToken p tok s
  | .provisionedToken p tok => Sys2Proof.Machine.execProvisionedToken p tok s
  | .ownerClaim p tok claim => Sys2Proof.Machine.execOwnerClaim p tok claim s
  | .releaseToken p tok => Sys2Proof.Machine.execReleaseToken p tok s
  | .rmaToken p owner vendor => Sys2Proof.Machine.execRmaToken p owner vendor s
  | .refurbish p tok => Sys2Proof.Machine.execRefurbish p tok s
  | .scrap p tok => Sys2Proof.Machine.execScrap p tok s
  | .testRun p tok => Sys2Proof.Machine.execTestRun p tok s
  | .provisioningAbandon => Sys2Proof.Machine.execProvisioningAbandon s
  | .ucalWrite p item off => Sys2Proof.Machine.execUcalWrite p item off s
  | .readLive q ring start count => Sys2Proof.Machine.execReadLive q ring start count s
  | .readSnapshot q slot desc start count => Sys2Proof.Machine.execReadSnapshot q slot desc start count s
  | .debugFreeze q => Sys2Proof.Machine.execDebugFreeze q s
  | .traceStart q => Sys2Proof.Machine.execTraceStart q s
  | .traceStop q => Sys2Proof.Machine.execTraceStop q s
  | .readTrace q start count => Sys2Proof.Machine.execReadTrace q start count s
  | .halt q h => Sys2Proof.Machine.execHalt q h s
  | .haltTakesEffect h => Sys2Proof.Machine.execHaltTakesEffect h s
  | .debugResume q h => Sys2Proof.Machine.execDebugResume q h s
  | .step q h => Sys2Proof.Machine.execStep q h s
  | .readReg q h reg => Sys2Proof.Machine.execReadReg q h reg s
  | .writeReg q h reg w => Sys2Proof.Machine.execWriteReg q h reg w s
  | .readMem q h a => Sys2Proof.Machine.execReadMem q h a s
  | .writeMem q h a w => Sys2Proof.Machine.execWriteMem q h a w s
  | .setBp q h k v => Sys2Proof.Machine.execSetBp q h k v s
  | .setWp q h k v => Sys2Proof.Machine.execSetWp q h k v s
  | .d3Access q t wr => Sys2Proof.Machine.execD3Access q t wr s
  | .copy who v => Sys2Proof.Machine.execCopy who v s
  | .copyLive who v => Sys2Proof.Machine.execCopyLive who v s
  | .protect who v => Sys2Proof.Machine.execProtect who v s
  | .unprotect who v => Sys2Proof.Machine.execUnprotect who v s
  | .erase who v => Sys2Proof.Machine.execErase who v s
  | .freeze who v => Sys2Proof.Machine.execFreeze who v s
  | .snapshotCommitComplete => Sys2Proof.Machine.execSnapshotCommitComplete s
  | .kick who v => Sys2Proof.Machine.execKick who v s
  | .watchdogExpiry => Sys2Proof.Machine.execWatchdogExpiry s
  | .canSwlog who v => Sys2Proof.Machine.execCanSwlog who v s
  | .blendLoad who k v => Sys2Proof.Machine.execBlendLoad who k v s
  | .blendSwap k => Sys2Proof.Machine.execBlendSwap k s
  | .bootGo who v => Sys2Proof.Machine.execBootGo who v s
  | .secExtend who v => Sys2Proof.Machine.execSecExtend who v s
  | .quiesce who => Sys2Proof.Machine.execQuiesce who s
  | .resume who => Sys2Proof.Machine.execResume who s
  | .maintenance who => Sys2Proof.Machine.execMaintenance who s
  | .powerOn who => Sys2Proof.Machine.execPowerOn who s
  | .maintenanceComplete => Sys2Proof.Machine.execMaintenanceComplete s
  | .factoryTestEntry p tok => Sys2Proof.Machine.execFactoryTestEntry p tok s
  | .factoryTestExit => Sys2Proof.Machine.execFactoryTestExit s
  | .bootSequence b => Sys2Proof.Machine.execBootSequence b s
  | .replacementImage step copyB signed => Sys2Proof.Machine.execReplacementImage step copyB signed s
  | .pwrEnAssert => Sys2Proof.Machine.execPwrEnAssert s
  | .pwrEnDeassert => Sys2Proof.Machine.execPwrEnDeassert s
  | .supplyLoss => Sys2Proof.Machine.execSupplyLoss s
  | .pwrFailNAssert => Sys2Proof.Machine.execPwrFailNAssert s
  | .resetRequest heldMs => Sys2Proof.Machine.execResetRequest heldMs s
  | .coldReset => Sys2Proof.Machine.execColdReset s
  | .modRstNDeassert => Sys2Proof.Machine.execModRstNDeassert s
  | .survivalEntry k reading => Sys2Proof.Machine.execSurvivalEntry k reading s
  | .tileShed => Sys2Proof.Machine.execTileShed s
  | .survivalExit => Sys2Proof.Machine.execSurvivalExit s
  | .thermalTrip k reading => Sys2Proof.Machine.execThermalTrip k reading s
  | .droopTrip t k mv => Sys2Proof.Machine.execDroopTrip t k mv s
  | .supplyEmergency mv => Sys2Proof.Machine.execSupplyEmergency mv s
  | .refclkTimeLoss => Sys2Proof.Machine.execRefclkTimeLoss s
  | .refclkTimeRestored => Sys2Proof.Machine.execRefclkTimeRestored s
  | .thermalLimitStep t => Sys2Proof.Machine.execThermalLimitStep t s
  | .powerLimitStep => Sys2Proof.Machine.execPowerLimitStep s
  | .firstUseLimitExpiry t => Sys2Proof.Machine.execFirstUseLimitExpiry t s
  | .cappedModeChange inputW vinMv => Sys2Proof.Machine.execCappedModeChange inputW vinMv s
  | .domainOffRequest who v => Sys2Proof.Machine.execDomainOffRequest who v s
  | .domainRetainRequest who v => Sys2Proof.Machine.execDomainRetainRequest who v s
  | .domainOnRequest who v => Sys2Proof.Machine.execDomainOnRequest who v s
  | .clusterDrainComplete k => Sys2Proof.Machine.execClusterDrainComplete k s
  | .domainTransitionComplete d => Sys2Proof.Machine.execDomainTransitionComplete d s
  | .thermalRezero k reading => Sys2Proof.Machine.execThermalRezero k reading s
  | .phyRetraining m => Sys2Proof.Machine.execPhyRetraining m s
  | .oscillatorAgeing => Sys2Proof.Machine.execOscillatorAgeing s
  | .wearLevellingMove block => Sys2Proof.Machine.execWearLevellingMove block s
  | .lampSample => Sys2Proof.Machine.execLampSample s
  | .idcode => Sys2Proof.Machine.execIdcode s
  | .samplePreload pins => Sys2Proof.Machine.execSamplePreload pins s
  | .extest pins => Sys2Proof.Machine.execExtest pins s
  | .clamp => Sys2Proof.Machine.execClamp s
  | .highz => Sys2Proof.Machine.execHighz s
  | .bypass code => Sys2Proof.Machine.execBypass code s
  | .tapPrivate code => Sys2Proof.Machine.execTapPrivate code s
  | .irqForce who off v => Sys2Proof.Machine.execIrqForce who off v s
  | .registerWrite who off v => Sys2Proof.Machine.execRegisterWrite who off v s
  | .supplyApplied aux mv => Sys2Proof.Machine.execSupplyApplied aux mv s
  | .pwrGoodRise => Sys2Proof.Machine.execPwrGoodRise s
  | .timeCounterAdvance p => Sys2Proof.Machine.execTimeCounterAdvance p s
  | .storeAccepted core slot => Sys2Proof.Machine.execStoreAccepted core slot s
  | .sluiceTracing c t => Sys2Proof.Machine.execSluiceTracing c t s
  | .hostMaintenanceRequest => Sys2Proof.Machine.execHostMaintenanceRequest s
  | .configurationRequest => Sys2Proof.Machine.execConfigurationRequest s
  | .hostLinkUp => Sys2Proof.Machine.execHostLinkUp s
  | .portLinkUp p speed preempt => Sys2Proof.Machine.execPortLinkUp p speed preempt s
  | .entdaa addr => Sys2Proof.Machine.execEntdaa addr s
  | .msixTableWrite n lo hi => Sys2Proof.Machine.execMsixTableWrite n lo hi s
  | .hostWindowCompletion idx status data => Sys2Proof.Machine.execHostWindowCompletion idx status data s
  | .completionTimeout idx => Sys2Proof.Machine.execCompletionTimeout idx s
  | .discardedFrame p => Sys2Proof.Machine.execDiscardedFrame p s
  | .tapReset => Sys2Proof.Machine.execTapReset s

end Sys2Proof.Machine
end

