-- ==== Sys2Proof/Machine/Step.lean ====
section
/-! DEFINITION. One step: the command at the front of the queue takes effect; an empty queue idles. -/
namespace Sys2Proof.Machine

/-- Take the command at the front of the queue and execute it with the rest of the queue
(DESIGN CHOICE, log 11) (DESIGN CHOICE, log 70). -/
def step (s : State) : Host.Outcome State Fault Refusal :=
  match s.pending with
  | [] => .next s
  | i :: rest => Sys2Proof.Machine.exec i { s with pending := rest }

/-- The state with the command a table word spells put at the front of its queue. No row of the operation table gives its
command bits, so no word spells one (DESIGN CHOICE, log 11). -/
def State.withFetchWord (s : State) (nbits w : Nat) : State :=
  match Sys2Proof.decodeTableWord nbits w with
  | some i => { s with pending := i :: s.pending }
  | none => s

end Sys2Proof.Machine
end

