-- ==== Sys2Proof/Safety.lean ====
section
/-! DEFINITION. The terms the statements are written in: a command that ends in a next state, a thread that can execute an
instruction now, the state that leaves when it completes, and the parts of the module a command leaves alone. -/
namespace Sys2Proof.Machine

/-- The command answers a next state, the queue is kept, and the module is as `p` says. -/
def Yields (i : Instr) (s : State) (p : Chip → Prop) : Prop :=
  ∃ t : State, exec i s = .next t ∧ t.pending = s.pending ∧ p t.chip

/-- The module with the thread's due load results landed: what an instruction begins from (R160). -/
def Chip.landed (c : Chip) (h : Hart) : Chip := c.modHart h landDue

/-- Thread h executes the instruction now, and its fetch succeeds, leaving the module `c`: the thread is ready, the
instruction is of its mode and not under REP, no debug comparator matches, no fault of its core's logic is about to be met,
and the word at the PC is the instruction's. -/
structure Starts (s : State) (h : Hart) (i : Insn) (c : Chip) : Prop where
  ready : s.chip.ready h = true
  mode : i.tram = (s.chip.hart h).tramMode
  single : (s.chip.hart h).tramMode = true ∨ (s.chip.hart h).repa = false
  noSession : (s.chip.landed h).sessionHit h (i.touch (s.chip.landed h)) = false
  noDebug : ((s.chip.landed h).hart h).priv ≠ 0 ∨ (((s.chip.landed h).hart h).stepDue = false ∧
    ((s.chip.landed h).hart h).swHits (i.touch (s.chip.landed h)) = 0)
  sound : ∀ e ∈ s.chip.latent, e.place ≠ .logic (coreOf h)
  fetched : fetchWord h ((s.chip.landed h).hart h).pc (s.chip.landed h) = .ok i.code c

/-- The state after an instruction of thread h whose own effect left the module `c` and the flow `f`: the PC, the load
slots and the single-step bits move on (R107, R136, R161, R664), and the module settles. -/
def Ended (s : State) (h : Hart) (i : Insn) (f : Flow) (c : Chip) : State :=
  { s with chip := ((c.modHart h (fun y => { y with insn := i.code })).retire h f ((s.chip.landed h).hart h).priv
    ((s.chip.landed h).hart h).repa).settle }

/-- The state after an instruction of thread h whose own effect stopped with the trap `t`, leaving the module `c`: the trap
is taken (R103, R280, R307); its saved PC is the instruction's, or the next one's for SOFTWARE_TRAP (R267, R268). -/
def Trapped (s : State) (h : Hart) (i : Insn) (t : Trap) (c : Chip) : State :=
  let pc := ((s.chip.landed h).hart h).pc
  { s with chip := ((c.takeTrap h t pc (if t.cause = 0x1B then pcForm (pc + 4) else pc) i.code).stepEnd h).settle }

/-- A write of the register at a BAR0 offset reaches it: the requester is there to make it, may make it (R674), the page
is mapped to it and serves it (R675), and a register is at the offset (R676). -/
def Chip.writable (c : Chip) (who : Requester) (o : Nat) : Prop :=
  c.present who = true ∧ ∃ r, c.reach who o true = .ok r

/-- NVM takes a write of these logical blocks: no fault waits to be met, and none of them is dead (R718). -/
def Chip.nvmTakes (c : Chip) (bs : List Nat) : Prop := c.latent = [] ∧ ∀ b ∈ bs, b ∉ c.nvm.dead

/-- Register specifiers that name a register (R86). -/
def named (l : List (BitVec 6)) : Prop := ∀ r ∈ l, r.toNat < 52

/-- Thread h reads its registers and fetches with nothing else to do: no register group awaits its lazy load (R123), no
register holds a stale pointer (R453), no translation is enabled for it and nothing of one is cached (R318, R342), and no
fault waits to be met. -/
structure Chip.Plain (c : Chip) (h : Hart) : Prop where
  lazies : fld ((c.hart h).sprD 0x081) 31 16 = 0
  healed : ∀ i : Nat, c.stale (c.hart h) ((c.hart h).preg i) = false
  flat : if (c.hart h).priv = 3 then bit ((c.hart h).sprD 0x111) 2 = false
    else fld ((c.hart h).sprD 0x111) 1 0 = 0
  uncached : c.tlb = [] ∧ c.tables = []
  sound : c.latent = [] ∧ (c.hart h).bad = []

/-- The special registers that an instruction's completion itself writes: PSTATE (LDEPTH and REPA), LCOUNT_0–3, REP_COUNT,
DIRTY_MASK and the single-step bits (R107, R110, R124, R664). -/
def completionSprs : List Nat := [0x000, 0x048, 0x049, 0x04A, 0x04B, 0x04C, 0x081, 0x146]

/-- Between two modules an instruction of thread h has changed, of its own registers, only those listed and the fields of
PSTATE for loops; nothing of another thread, no memory, and of the register pages only the core's performance counters. -/
structure Chip.Keeps (c t : Chip) (h : Hart) (regs sprs : List Nat) : Prop where
  mem : t.mem = c.mem
  harts : ∀ k, k ≠ h → t.hart k = c.hart k
  regs : ∀ i, i ∉ regs → (t.hart h).preg i = (c.hart h).preg i
  sprs : ∀ n, n ∉ sprs → (t.hart h).sprW n = (c.hart h).sprW n
  pstate : ∀ i, i < 4 ∨ 8 ≤ i → bit (t.hart h).pstate i = bit (c.hart h).pstate i
  thread : (t.hart h).tub = (c.hart h).tub ∧ (t.hart h).resv = (c.hart h).resv ∧ (t.hart h).tram = (c.hart h).tram ∧
    (t.hart h).dse = (c.hart h).dse ∧ (t.hart h).run = (c.hart h).run
  pages : ∀ o, t.reg o ≠ c.reg o → Blk.cor.base (clusterOf h).toNat + 0x100 ≤ o ∧
    o < Blk.cor.base (clusterOf h).toNat + 0x200
  mode : t.mode = c.mode

/-- What every command leaves true: the asserted pages are those whose interrupt is asserted (R681), and the pins the
module drives are driven as R699 says. -/
structure Chip.Settled (c : Chip) : Prop where
  asserted : c.asserted = c.enabledPages.filter (fun p => decide (c.reg (p + 0x28) &&& c.reg (p + 0x30) ≠ 0))
  pwrGood : c.pins.pwrGood = true ↔ c.mode ≠ .off ∧ 40000 ≤ c.power.vinMv ∧ c.power.vinMv ≤ 60000 ∧ c.power.vinStable = true
  faultN : c.pins.faultN = false ↔ c.mode ≠ .off ∧
    (c.mode = .degraded ∨ (c.mode = .boot ∧ c.hdf.halted ≠ none) ∨ c.mcSeen = true)
  alertN : c.pins.alertN = false ↔ c.mode ≠ .off ∧
    ((∃ e ∈ c.power.temps, zoneOf e.1 e.2 ≥ 1) ∨ c.power.inputW > c.limitW)

end Sys2Proof.Machine
end

