-- ==== Sys2Proof/Certificates/Slice0/Obligations.lean ====
section
/-! DEFINITION. The statements for the provers. A statement of an instruction's result begins from the module its fetch
left (`Starts`), follows its operands as they are read, and concludes with the next state `exec` answers (`Ended`). -/
open Sys2Proof Sys2Proof.Machine

/-- R150: each raw instruction of two sources delivers the RAW word of its result to rd, whatever register rd names. -/
def Obligations.RawBinaryResults : Prop :=
  ∀ e ∈ ([(Instr.add, insnAdd, fun a b => a + b), (Instr.sub, insnSub, fun a b => a - b),
      (Instr.mul, insnMul, fun a b => a * b),
      (Instr.mulh, insnMulh, fun a b => (a.signExtend 128 * b.signExtend 128).extractLsb' 64 64),
      (Instr.and, insnAnd, fun a b => a &&& b), (Instr.or, insnOr, fun a b => a ||| b),
      (Instr.xor, insnXor, fun a b => a ^^^ b),
      (Instr.shl, insnShl, fun a b => if b.toNat % 128 ≥ 64 then 0 else a <<< (b.toNat % 128)),
      (Instr.shr, insnShr, fun a b => if b.toNat % 128 ≥ 64 then 0 else a >>> (b.toNat % 128)),
      (Instr.sar, insnSar, fun a b => if b.toNat % 128 ≥ 64 then (if a.msb then BitVec.allOnes 64 else 0)
        else a.sshiftRight (b.toNat % 128))] :
      List ((Hart → AOps → Instr) × (Hart → AOps → Insn) × (Datum → Datum → Datum))),
    ∀ (s : State) (h : Hart) (o : AOps) (a b : Word) (c c1 c2 c3 : Chip),
      Starts s h (e.2.1 h o) c → named [o.rd, o.rs, o.rt] →
      src h o.rs c = .ok a c1 → src h o.rt c1 = .ok b c2 → c2.ptr a = false → c2.ptr b = false →
      writeSpec h o.rd (.raw (e.2.2 a.dat b.dat)) c2 = .ok () c3 →
      exec (e.1 h o) s = .next (Ended s h (e.2.1 h o) .seq c3)

/-- R152: BFX, BFI and BPERM, with pos, len and mask as its pseudocode defines them from the datum of rt. -/
def Obligations.FieldInstructionResults : Prop :=
  ∀ (s : State) (h : Hart) (o : AOps) (a b d : Word) (c c1 c2 c3 c4 : Chip), named [o.rd, o.rs, o.rt] →
    src h o.rs c = .ok a c1 → src h o.rt c1 = .ok b c2 → c2.ptr a = false → c2.ptr b = false →
    let pos := (b.dat.extractLsb' 0 6).toNat
    let len := (b.dat.extractLsb' 8 6).toNat + 1
    let ones : Datum := BitVec.ofNat 64 (2 ^ len - 1)
    (Starts s h (insnBfx h o) c → writeSpec h o.rd (.raw ((a.dat >>> pos) &&& ones)) c2 = .ok () c3 →
      exec (.bfx h o) s = .next (Ended s h (insnBfx h o) .seq c3)) ∧
    (Starts s h (insnBfi h o) c → src h o.rd c2 = .ok d c3 → c3.ptr a = false → c3.ptr b = false → c3.ptr d = false →
      writeSpec h o.rd (.raw ((d.dat &&& ~~~(ones <<< pos)) ||| ((a.dat <<< pos) &&& (ones <<< pos)))) c3 = .ok () c4 →
      exec (.bfi h o) s = .next (Ended s h (insnBfi h o) .seq c4)) ∧
    (∀ r : Datum, Starts s h (insnBperm h o) c →
      (∀ i : Nat, i < 8 → r.extractLsb' (8 * i) 8 = if b.dat.getLsbD (4 * i + 3) then 0
        else a.dat.extractLsb' (8 * (b.dat.extractLsb' (4 * i) 3).toNat) 8) →
      writeSpec h o.rd (.raw r) c2 = .ok () c3 →
      exec (.bperm h o) s = .next (Ended s h (insnBperm h o) .seq c3))

/-- R150, R151: DIV and REM deliver the quotient truncated toward zero and its remainder, modulo 2^64, and with a divisor
of 0 trap DIV_ZERO. -/
def Obligations.DivideResults : Prop :=
  ∀ (s : State) (h : Hart) (o : AOps) (a b : Word) (c c1 c2 c3 : Chip), named [o.rd, o.rs, o.rt] →
    src h o.rs c = .ok a c1 → src h o.rt c1 = .ok b c2 → c2.ptr a = false → c2.ptr b = false →
    (Starts s h (insnDiv h o) c → b.dat ≠ 0 →
      writeSpec h o.rd (.raw (BitVec.ofInt 64 (a.dat.toInt.tdiv b.dat.toInt))) c2 = .ok () c3 →
      exec (.div h o) s = .next (Ended s h (insnDiv h o) .seq c3)) ∧
    (Starts s h (insnRem h o) c → b.dat ≠ 0 →
      writeSpec h o.rd (.raw (BitVec.ofInt 64 (a.dat.toInt.tmod b.dat.toInt))) c2 = .ok () c3 →
      exec (.rem h o) s = .next (Ended s h (insnRem h o) .seq c3)) ∧
    (Starts s h (insnDiv h o) c → b.dat = 0 →
      exec (.div h o) s = .next (Trapped s h (insnDiv h o) { cause := 0x11 } c2)) ∧
    (Starts s h (insnRem h o) c → b.dat = 0 →
      exec (.rem h o) s = .next (Trapped s h (insnRem h o) { cause := 0x11 } c2))

/-- R150, R151: CLZ, CTZ and POPC count the leading zeros, the trailing zeros and the one bits of rs; CLZ and CTZ of 0
give 64. -/
def Obligations.BitCountResults : Prop :=
  ∀ (s : State) (h : Hart) (o : AOps) (a : Word) (n : Nat) (c c1 c2 : Chip), o.rt = 0 → named [o.rd, o.rs] →
    src h o.rs c = .ok a c1 → c1.ptr a = false → writeSpec h o.rd (.raw (BitVec.ofNat 64 n)) c1 = .ok () c2 →
    (Starts s h (insnClz h o) c → n ≤ 64 → (∀ i < n, a.dat.getLsbD (63 - i) = false) →
      (n < 64 → a.dat.getLsbD (63 - n) = true) → exec (.clz h o) s = .next (Ended s h (insnClz h o) .seq c2)) ∧
    (Starts s h (insnCtz h o) c → n ≤ 64 → (∀ i < n, a.dat.getLsbD i = false) →
      (n < 64 → a.dat.getLsbD n = true) → exec (.ctz h o) s = .next (Ended s h (insnCtz h o) .seq c2)) ∧
    (Starts s h (insnPopc h o) c → n = (List.range 64).countP (fun i => a.dat.getLsbD i) →
      exec (.popc h o) s = .next (Ended s h (insnPopc h o) .seq c2))

/-- R139, R150: the immediate forms; ADDI sign-extends imm14, the others zero-extend it, and SHORI shifts rs left by 14. -/
def Obligations.RawImmediateResults : Prop :=
  ∀ e ∈ ([(Instr.addi, insnAddi, fun a i => a + i.signExtend 64), (Instr.andi, insnAndi, fun a i => a &&& i.zeroExtend 64),
      (Instr.ori, insnOri, fun a i => a ||| i.zeroExtend 64), (Instr.xori, insnXori, fun a i => a ^^^ i.zeroExtend 64),
      (Instr.shli, insnShli, fun a i => if i.toNat ≥ 64 then 0 else a <<< i.toNat),
      (Instr.shri, insnShri, fun a i => if i.toNat ≥ 64 then 0 else a >>> i.toNat),
      (Instr.sari, insnSari, fun a i => if i.toNat ≥ 64 then (if a.msb then BitVec.allOnes 64 else 0)
        else a.sshiftRight i.toNat),
      (Instr.shori, insnShori, fun a i => (a <<< 14) ||| i.zeroExtend 64)] :
      List ((Hart → IOps → Instr) × (Hart → IOps → Insn) × (Datum → BitVec 14 → Datum))),
    ∀ (s : State) (h : Hart) (o : IOps) (a : Word) (c c1 c2 : Chip),
      Starts s h (e.2.1 h o) c → named [o.rd, o.rs] →
      (e.1 h o = .shli h o ∨ e.1 h o = .shri h o ∨ e.1 h o = .sari h o → o.imm.toNat < 128) →
      src h o.rs c = .ok a c1 → c1.ptr a = false →
      writeSpec h o.rd (.raw (e.2.2 a.dat o.imm)) c1 = .ok () c2 →
      exec (e.1 h o) s = .next (Ended s h (e.2.1 h o) .seq c2)

/-- R147, R148, R190: CMP, CMPI, TAGCHK and EQ write all five fields of COND (Z bit 0, LT 1, LTU 2, UN 3, TR 4); EQ also
delivers T or NIL. -/
def Obligations.CompareResults : Prop :=
  ∀ (s : State) (h : Hart) (v : Datum), v.toNat < 32 →
    (∀ (o : AOps) (a b : Word) (c c1 c2 c3 : Chip), Starts s h (insnCmp h o) c → o.rd = 0 → named [o.rs, o.rt] →
      src h o.rs c = .ok a c1 → src h o.rt c1 = .ok b c2 → c2.ptr a = false → c2.ptr b = false →
      v.getLsbD 0 = decide (a.dat = b.dat) → v.getLsbD 1 = a.dat.slt b.dat → v.getLsbD 2 = a.dat.ult b.dat →
      v.getLsbD 3 = false → v.getLsbD 4 = decide (a.dat = b.dat) → setSprM h 0x00F v c2 = .ok () c3 →
      exec (.cmp h o) s = .next (Ended s h (insnCmp h o) .seq c3)) ∧
    (∀ (o : IOps) (a : Word) (c c1 c2 : Chip), Starts s h (insnCmpi h o) c → o.rd = 0 → named [o.rs] →
      src h o.rs c = .ok a c1 → c1.ptr a = false →
      v.getLsbD 0 = decide (a.dat = o.imm.signExtend 64) → v.getLsbD 1 = a.dat.slt (o.imm.signExtend 64) →
      v.getLsbD 2 = a.dat.ult (o.imm.signExtend 64) → v.getLsbD 3 = false →
      v.getLsbD 4 = decide (a.dat = o.imm.signExtend 64) → setSprM h 0x00F v c1 = .ok () c2 →
      exec (.cmpi h o) s = .next (Ended s h (insnCmpi h o) .seq c2)) ∧
    (∀ (o : IOps) (a : Word) (r : Bool) (c c1 c2 : Chip), Starts s h (insnTagchk h o) c → o.rd = 0 → named [o.rs] →
      o.imm.toNat < 256 → (64 ≤ o.imm.toNat → o.imm.toNat % 64 = 0) → src h o.rs c = .ok a c1 →
      r = (if o.imm.toNat < 64 then decide (a.type.toNat = o.imm.toNat) else if o.imm.toNat = 64 then c1.ptr a
        else if o.imm.toNat = 128 then c1.imm a else c1.num a) →
      setSprM h 0x00F (if r then 0x11 else 0) c1 = .ok () c2 →
      exec (.tagchk h o) s = .next (Ended s h (insnTagchk h o) .seq c2)) ∧
    (∀ (o : AOps) (a b : Word) (r : Bool) (c c1 c2 c3 c4 c5 : Chip), Starts s h (insnEq h o) c →
      named [o.rd, o.rs, o.rt] → src h o.rs c = .ok a c1 → src h o.rt c1 = .ok b c2 →
      lazySpec h o.rd c2 = .ok () c3 →
      r = (decide (a.type = b.type) && decide (a.dat = b.dat) && (c3.ptr a || decide (a.colour = b.colour))) →
      setSprM h 0x00F (if r then 0x11 else 0) c3 = .ok () c4 →
      writeSpec h o.rd (if r then ⟨0x05, 1⟩ else ⟨0x04, 0⟩) c4 = .ok () c5 →
      exec (.eq h o) s = .next (Ended s h (insnEq h o) .seq c5))

/-- R153, R154, R155, R156: a raw floating-point instruction ORs the flags it raises into FP_FLAGS and, none of them
enabled, delivers its result: FLO for arithmetic, FCVT.IF and FCVT.BF, RAW for FCVT.FI and FCVT.FN; FCMP writes COND alone. -/
def Obligations.FloatResults : Prop :=
  ∀ (s : State) (h : Hart) (o : AOps) (a b d : Word) (c c1 c2 c3 c4 c5 : Chip),
    src h o.rs c = .ok a c1 → c1.ptr a = false →
    (∀ e ∈ ([(Instr.fadd, insnFadd, fadd), (Instr.fsub, insnFsub, fsub), (Instr.fmul, insnFmul, fmul),
        (Instr.fdiv, insnFdiv, fdiv)] :
        List ((Hart → AOps → Instr) × (Hart → AOps → Insn) × (Datum → Datum → Datum × Nat))),
      Starts s h (e.2.1 h o) c → named [o.rd, o.rs, o.rt] → src h o.rt c1 = .ok b c2 → c2.ptr a = false → c2.ptr b = false →
      lazySpec h o.rd c2 = .ok () c3 → raiseFp h (e.2.2 a.dat b.dat).2 c3 = .ok () c4 →
      writeSpec h o.rd ⟨0x02, (e.2.2 a.dat b.dat).1⟩ c4 = .ok () c5 →
      exec (e.1 h o) s = .next (Ended s h (e.2.1 h o) .seq c5)) ∧
    (Starts s h (insnFma h o) c → named [o.rd, o.rs, o.rt] → src h o.rt c1 = .ok b c2 → src h o.rd c2 = .ok d c3 →
      c3.ptr a = false → c3.ptr b = false → c3.ptr d = false →
      let r := fma a.dat b.dat d.dat (Config.freeBit c3.fresh)
      raiseFp h r.2 c3.tick = .ok () c4 → writeSpec h o.rd ⟨0x02, r.1⟩ c4 = .ok () c5 →
      exec (.fma h o) s = .next (Ended s h (insnFma h o) .seq c5)) ∧
    (∀ e ∈ ([(Instr.fcvtIf, insnFcvtIf, fun x => (⟨0x02, (floOfInt x.toInt).1⟩, (floOfInt x.toInt).2)),
        (Instr.fcvtFi, insnFcvtFi, fun x => (.raw (intOfFlo x true).1, (intOfFlo x true).2)),
        (Instr.fcvtFn, insnFcvtFn, fun x => (.raw (intOfFlo x false).1, (intOfFlo x false).2)),
        (Instr.fcvtBf, insnFcvtBf, fun x => (⟨0x02, x⟩, 0))] :
        List ((Hart → AOps → Instr) × (Hart → AOps → Insn) × (Datum → Word × Nat))),
      Starts s h (e.2.1 h o) c → o.rt = 0 → named [o.rd, o.rs] →
      lazySpec h o.rd c1 = .ok () c2 → raiseFp h (e.2.2 a.dat).2 c2 = .ok () c3 →
      writeSpec h o.rd (e.2.2 a.dat).1 c3 = .ok () c4 →
      exec (e.1 h o) s = .next (Ended s h (e.2.1 h o) .seq c4)) ∧
    (Starts s h (insnFcmp h o) c → o.rd = 0 → named [o.rs, o.rt] → src h o.rt c1 = .ok b c2 →
      c2.ptr a = false → c2.ptr b = false →
      raiseFp h (if isSnan a.dat || isSnan b.dat then 16 else 0) c2 = .ok () c3 →
      setSprM h 0x00F (match fcmp a.dat b.dat with
        | none => 0x08
        | some (eq, lt) => (if eq then 0x11 else 0) + (if lt then 0x06 else 0)) c3 = .ok () c4 →
      exec (.fcmp h o) s = .next (Ended s h (insnFcmp h o) .seq c4))

/-- R153: where an operand is a NaN the result is the first NaN operand in the order rs, rt, rd, with its quiet bit set,
and NV is raised exactly where an operand signals (R155); an invalid product added to a quiet NaN leaves NV open. -/
def Obligations.FloatNaNResults : Prop :=
  ∀ (a b d : Datum) (v : Bool) (f : Datum → Datum → Datum × Nat), f ∈ [fadd, fsub, fmul, fdiv] →
    (isNan a = true → (f a b).1 = a ||| 0x0008000000000000) ∧
    (isNan a = false → isNan b = true → (f a b).1 = b ||| 0x0008000000000000) ∧
    (isNan a = true ∨ isNan b = true → (f a b).2 = if isSnan a || isSnan b then 16 else 0) ∧
    (isNan a = false → isNan b = false → isNan d = true → (fma a b d v).1 = d ||| 0x0008000000000000) ∧
    (isNan a = true → (fma a b d v).1 = a ||| 0x0008000000000000) ∧
    (isNan a = false → isNan b = true → (fma a b d v).1 = b ||| 0x0008000000000000)

/-- R188, R194, R195, R197: on FIX operands the generic arithmetic delivers the exact result as a FIX where it fits 64 bits,
and GLT, GLE and GEQ deliver T or NIL and write COND; GDIV delivers the truncated quotient by way of the bignum path, which
advances TP by what it allocated. -/
def Obligations.GenericFixResults : Prop :=
  ∀ (s : State) (h : Hart) (o : AOps) (a b : Word) (c c1 c2 c3 c4 c5 c6 c7 : Chip), named [o.rd, o.rs, o.rt] →
    src h o.rs c = .ok a c1 → a.type = 0x01 →
    (∀ e ∈ ([(Instr.gadd, insnGadd, fun p q => p + q), (Instr.gsub, insnGsub, fun p q => p - q),
        (Instr.gmul, insnGmul, fun p q => p * q),
        (Instr.gash, insnGash, fun p q => if q < 0 then p / 2 ^ q.natAbs else p * 2 ^ q.natAbs)] :
        List ((Hart → AOps → Instr) × (Hart → AOps → Insn) × (Int → Int → Int))),
      Starts s h (e.2.1 h o) c → src h o.rt c1 = .ok b c2 → b.type = 0x01 →
      -(2 ^ 63) ≤ e.2.2 a.dat.toInt b.dat.toInt → e.2.2 a.dat.toInt b.dat.toInt < 2 ^ 63 → lazySpec h o.rd c2 = .ok () c3 →
      writeSpec h o.rd ⟨0x01, BitVec.ofInt 64 (e.2.2 a.dat.toInt b.dat.toInt)⟩ c3 = .ok () c4 →
      exec (e.1 h o) s = .next (Ended s h (e.2.1 h o) .seq c4)) ∧
    (Starts s h (insnGneg h o) c → o.rt = 0 → a.dat ≠ 0x8000000000000000 → lazySpec h o.rd c1 = .ok () c2 →
      writeSpec h o.rd ⟨0x01, BitVec.ofInt 64 (-a.dat.toInt)⟩ c2 = .ok () c3 →
      exec (.gneg h o) s = .next (Ended s h (insnGneg h o) .seq c3)) ∧
    (∀ (w : Word) (n : Nat), Starts s h (insnGdiv h o) c → src h o.rt c1 = .ok b c2 → b.type = 0x01 → b.dat ≠ 0 →
      lazySpec h o.rd c2 = .ok () c3 → vendorFetch h (16 * a.type.toNat + 3) c3 = .ok () c4 →
      bigResult h (a.dat.toInt.tdiv b.dat.toInt) 2 c4 = .ok (w, n) c5 → writeSpec h o.rd w c5 = .ok () c6 →
      advanceTp h (c3.hart h).tp n c6 = .ok () c7 →
      exec (.gdiv h o) s = .next (Ended s h (insnGdiv h o) .seq c7)) ∧
    (∀ e ∈ ([(Instr.glt, insnGlt, fun p q => decide (p < q)), (Instr.gle, insnGle, fun p q => decide (p ≤ q)),
        (Instr.geq, insnGeq, fun p q => decide (p = q))] :
        List ((Hart → AOps → Instr) × (Hart → AOps → Insn) × (Int → Int → Bool))),
      Starts s h (e.2.1 h o) c → src h o.rt c1 = .ok b c2 → b.type = 0x01 →
      let r := e.2.2 a.dat.toInt b.dat.toInt
      lazySpec h o.rd c2 = .ok () c3 → lazyLoad h 9 c3 = .ok () c4 → setSprM h 0x00F (if r then 0x11 else 0) c4 = .ok () c5 →
      writeSpec h o.rd (if r then ⟨0x05, 1⟩ else ⟨0x04, 0⟩) c5 = .ok () c6 →
      exec (e.1 h o) s = .next (Ended s h (e.2.1 h o) .seq c6))

/-- R187, R242, R243: a numeric class on operands of which a user type takes part enters that type's vector in the Blend
store, where the store is usable, no swap of it waits, and its VMID is the thread's; BLEND enters 0x3F00 + sel. -/
def Obligations.DispatchEntersBlend : Prop :=
  ∀ (s : State) (h : Hart) (o : AOps) (a b d : Word) (c c1 c2 c3 : Chip), named [o.rd, o.rs, o.rt] →
    src h o.rs c = .ok a c1 → src h o.rt c1 = .ok b c2 → src h o.rd c2 = .ok d c3 →
    sget c3.blendVmid (clusterOf h).toNat 0 = (c3.hart h).vmid → c3.blendBad.contains (clusterOf h).toNat = false →
    c3.xfers.lookup (clusterOf h).toNat = none →
    (∀ e ∈ ([(Instr.gadd, insnGadd, 0), (Instr.gsub, insnGsub, 1), (Instr.gmul, insnGmul, 2), (Instr.gdiv, insnGdiv, 3),
        (Instr.glt, insnGlt, 6), (Instr.gle, insnGle, 7), (Instr.geq, insnGeq, 8)] :
        List ((Hart → AOps → Instr) × (Hart → AOps → Insn) × Nat)),
      Starts s h (e.2.1 h o) c → 0x20 ≤ a.type.toNat → b.type = a.type →
      Yields (e.1 h o) s (fun t => ∃ m, (t.hart h).micro = some m ∧
        m.upc = BitVec.ofNat 14 (fld (c2.row a.type) 41 32 * 16 + e.2.2) ∧ m.ops = a ∧ m.opt = b ∧ m.opd = d ∧
        m.cls = e.2.2 ∧ m.count = 0)) ∧
    (∀ sel : BitVec 8, Starts s h (insnBlend h o sel) c →
      Yields (.blend h o sel) s (fun t => ∃ m, (t.hart h).micro = some m ∧
        m.upc = BitVec.ofNat 14 (0x3F00 + sel.toNat) ∧ m.ops = a ∧ m.opt = b ∧ m.opd = d ∧ m.cls = 16 ∧ m.count = 0))

/-- R188, R191–R193, R203, R207–R211: the rows of cells, vectors and tags; a NIL has NIL for CAR and CDR, CONS stores its
two words at TP and advances TP by 16. -/
def Obligations.CellResults : Prop :=
  ∀ (s : State) (h : Hart) (o : AOps) (a b d v : Word) (c c1 c2 c3 c4 c5 : Chip),
    src h o.rs c = .ok a c1 → named [o.rd, o.rs, o.rt] →
    (∀ e ∈ ([(Instr.car, insnCar, 0), (Instr.cdr, insnCdr, 8)] :
        List ((Hart → AOps → Instr) × (Hart → AOps → Insn) × Datum)),
      Starts s h (e.2.1 h o) c → o.rt = 0 →
      (a.type = 0x08 → loadWord h (a.dat + e.2.2) 2 .other false c1 = .ok v c2 → writeSpec h o.rd v c2 = .ok () c3 →
        exec (e.1 h o) s = .next (Ended s h (e.2.1 h o) .seq c3)) ∧
      (a.type = 0x04 → writeSpec h o.rd ⟨0x04, 0⟩ c1 = .ok () c2 →
        exec (e.1 h o) s = .next (Ended s h (e.2.1 h o) .seq c2))) ∧
    (∀ e ∈ ([(Instr.rplaca, insnRplaca, 0), (Instr.rplacd, insnRplacd, 8)] :
        List ((Hart → AOps → Instr) × (Hart → AOps → Insn) × Datum)),
      Starts s h (e.2.1 h o) c → a.type = 0x08 → src h o.rt c1 = .ok b c2 → lazySpec h o.rd c2 = .ok () c3 →
      storeWord h (a.dat + e.2.2) b 3 .other .producible c3 = .ok () c4 → writeSpec h o.rd a c4 = .ok () c5 →
      exec (e.1 h o) s = .next (Ended s h (e.2.1 h o) .seq c5)) ∧
    (Starts s h (insnCons h o) c → src h o.rt c1 = .ok b c2 → (c2.hart h).tp.toNat % 16 = 0 →
      localForm (c2.hart h).tp = true → (c2.hart h).tp.toNat + 16 ≤ ((c2.hart h).sprD 0x003).toNat →
      lazySpec h o.rd c2 = .ok () c3 → storeAll h (c2.hart h).tp [a, b] c3 = .ok () c4 →
      writeSpec h o.rd ⟨((c4.goodOf (c4.hart h)).zeroExtend 8 <<< 6) ||| 0x08, (c2.hart h).tp⟩ c4 = .ok () c5 →
      exec (.cons h o) s = .next (Ended s h (insnCons h o) .seq
        (c5.modHart h (fun x => x.putPreg 417 (.raw ((c2.hart h).tp + 16)))))) ∧
    (∀ (n sub : Nat) (base : Datum), Starts s h (insnGetv h o) c → src h o.rt c1 = .ok b c2 → b.type = 0x01 →
      0x09 ≤ a.type.toNat → a.type.toNat ≤ 0x0D → readHeader h a.dat c2 = .ok (n, base, sub) c3 →
      0 ≤ b.dat.toInt → b.dat.toInt < n → loadWord h (base + BitVec.ofNat 64 (8 * b.dat.toInt.toNat)) 2 .other false c3 = .ok v c4 →
      writeSpec h o.rd v c4 = .ok () c5 → exec (.getv h o) s = .next (Ended s h (insnGetv h o) .seq c5)) ∧
    (∀ (n sub : Nat) (base : Datum), Starts s h (insnSetv h o) c → src h o.rt c1 = .ok b c2 → src h o.rd c2 = .ok d c3 →
      b.type = 0x01 → 0x09 ≤ a.type.toNat → a.type.toNat ≤ 0x0D →
      readHeader h a.dat c3 = .ok (n, base, sub) c4 → 0 ≤ b.dat.toInt → b.dat.toInt < n →
      (0xE0 ≤ sub → sub ≤ 0xEF → c4.ptr d = false) →
      storeWord h (base + BitVec.ofNat 64 (8 * b.dat.toInt.toNat)) d 3 .other .producible c4 = .ok () c5 →
      exec (.setv h o) s = .next (Ended s h (insnSetv h o) .seq c5)) ∧
    (Starts s h (insnUnbox h o) c → o.rt = 0 →
      (a.type = 0x0F → loadWord h a.dat 2 .other false c1 = .ok v c2 → writeSpec h o.rd v c2 = .ok () c3 →
        exec (.unbox h o) s = .next (Ended s h (insnUnbox h o) .seq c3)) ∧
      (a.type.toNat < 0x20 → a.type ≠ 0x06 → a.type ≠ 0x14 → a.type ≠ 0x0F → c1.imm a = true →
        writeSpec h o.rd (.raw a.dat) c1 = .ok () c2 →
        exec (.unbox h o) s = .next (Ended s h (insnUnbox h o) .seq c2))) ∧
    (Starts s h (insnTypeof h o) c → o.rt = 0 →
      writeSpec h o.rd ⟨0x01, BitVec.ofNat 64 a.type.toNat⟩ c1 = .ok () c2 →
      exec (.typeof h o) s = .next (Ended s h (insnTypeof h o) .seq c2)) ∧
    (Starts s h (insnMkfix h o) c → o.rt = 0 → a.type = 0x00 ∨ a.type = 0x01 ∨ a.type = 0x03 →
      writeSpec h o.rd ⟨0x01, a.dat⟩ c1 = .ok () c2 → exec (.mkfix h o) s = .next (Ended s h (insnMkfix h o) .seq c2)) ∧
    (Starts s h (insnTagset h o) c → 1 ≤ (c.hart h).priv → src h o.rt c1 = .ok b c2 →
      let w : Word := ⟨b.dat.extractLsb' 0 8, a.dat⟩
      c2.producible w = true →
      (c2.ptr w = false → writeSpec h o.rd w c2 = .ok () c3 → exec (.tagset h o) s = .next (Ended s h (insnTagset h o) .seq c3)) ∧
      (c2.ptr w = true → healFor h w c2 = .ok v c3 → writeSpec h o.rd v c3 = .ok () c4 →
        exec (.tagset h o) s = .next (Ended s h (insnTagset h o) .seq c4)))

/-- R71, R139, R157, R158, R159, R170: a load takes its address from its base, RAW or a pointer that is not global, and its
scaled offset; its word waits for its landing; a datum load of a RAW word delivers its bytes zero-extended; a load of the
host window is sent there and the thread waits, also where rd discards its datum; TUBLD allocates a tub entry. -/
def Obligations.LoadResults : Prop :=
  ∀ (s : State) (h : Hart) (o : IOps) (b w : Word) (c c1 c2 c3 c4 c5 : Chip), src h o.rs c = .ok b c1 →
    b.tag = 0 ∨ (c1.ptr b = true ∧ c1.glob b = false) →
    (Starts s h (insnLdw h o) c → named [o.rd, o.rs] → lazySpec h o.rd c1 = .ok () c2 →
      loadWord h (b.dat + o.imm.signExtend 64 * 8) 2 .word false c2 = .ok w c3 → land h o.rd w c3 = .ok () c4 →
      exec (.ldw h o) s = .next (Ended s h (insnLdw h o) .seq c4)) ∧
    (∀ e ∈ ([(Instr.ldb, insnLdb, 1), (Instr.ldh, insnLdh, 2), (Instr.ldq, insnLdq, 4), (Instr.ldd, insnLdd, 8)] :
        List ((Hart → IOps → Instr) × (Hart → IOps → Insn) × Nat)),
      Starts s h (e.2.1 h o) c → named [o.rd, o.rs] → lazySpec h o.rd c1 = .ok () c2 →
      let va := b.dat + o.imm.signExtend 64 * BitVec.ofNat 64 e.2.2
      (∀ d : Datum, loadRaw h (c2.hart h).regime va e.2.2 c2 = .ok (.now d) c3 → land h o.rd (.raw d) c3 = .ok () c4 →
        exec (e.1 h o) s = .next (Ended s h (e.2.1 h o) .seq c4)) ∧
      (∀ pa i : Nat, loadRaw h (c2.hart h).regime va e.2.2 c2 = .ok (.sent pa) c3 →
        (pregOf (c3.hart h).cwp o.rd = some i →
          exec (e.1 h o) s = .next (Ended s h (e.2.1 h o) (.issued .hostLoad)
            { c3 with pcie := { c3.pcie with loads := c3.pcie.loads ++ [⟨h, BitVec.ofNat 52 pa, o.rd, i⟩] } })) ∧
        (pregOf (c3.hart h).cwp o.rd = none →
          exec (e.1 h o) s = .next (Ended s h (e.2.1 h o) (.issued .hostLoad)
            { c3 with pcie := { c3.pcie with loads := c3.pcie.loads ++ [⟨h, BitVec.ofNat 52 pa, 48, 0⟩] } }))) ∧
      (∀ (x : Xl) (d : Word), va.toNat % e.2.2 = 0 →
        translate (walkerOf h va 2) (c2.hart h).regime ⟨2, false, if e.2.2 = 8 then .raw else .sub⟩ c2 = .ok x c3 →
        c3.region x.pa = .dram → readAt h x c3 = .ok d c4 → d.tag = 0 →
        land h o.rd (.raw (BitVec.ofNat 64 (d.dat.toNat / 2 ^ (8 * (va.toNat % 8)) % 2 ^ (8 * e.2.2)))) c4 = .ok () c5 →
        exec (e.1 h o) s = .next (Ended s h (e.2.1 h o) .seq c5))) ∧
    (∀ (x : Xl) (id : Nat), Starts s h (insnTubld h o) c → o.rd = 0 → o.rs.toNat < 52 → c1.glob b = false →
      (b.dat + o.imm.signExtend 64 * 8).toNat % 8 = 0 →
      translate (walkerOf h (b.dat + o.imm.signExtend 64 * 8) 2) (c1.hart h).regime ⟨2, false, .other⟩ c1 = .ok x c2 →
      (c2.hart h).tub.length < 32 →
      allocTub h (b.dat + o.imm.signExtend 64 * 8) (some (BitVec.ofNat 52 x.pa)) x.mono x.w c2 = .ok id c3 →
      exec (.tubld h o) s = .next (Ended s h (insnTubld h o) .seq (c3.pmc h 0x07 1)))

/-- R159–R161: a load's word lands in the register rd selects when the load executes; a landing waits out its two slots, the
load itself counting one off; ZR and NL discard it (R87); LOAD_LANDING writes a result whose slots have run out to its
register and leaves another waiting. -/
def Obligations.LandingResults : Prop :=
  (∀ (h : Hart) (rd : BitVec 6) (w : Word) (c d : Chip), isPoison w = false →
    (pregOf (c.hart h).cwp rd = none → land h rd w c = .ok () c) ∧
    (∀ i, pregOf (c.hart h).cwp rd = some i → lazyPreg h i c = .ok () d →
      ∃ t, land h rd w c = .ok () t ∧ (t.hart h).landings = (d.hart h).landings ++ [⟨i, w, 3⟩] ∧
        (t.hart h).regs = (d.hart h).regs)) ∧
  (∀ (s : State) (h : Hart) (l : Landing), (s.chip.hart h).landings = [l] →
    (l.slots = 0 → Yields (.loadLanding h) s (fun t => (t.hart h).landings = [] ∧
      (t.hart h).preg l.preg = if l.preg ≥ 416 then .raw l.word.dat else l.word)) ∧
    (l.slots ≠ 0 → Yields (.loadLanding h) s (fun t => t.hart h = s.chip.hart h)))

/-- R73, R139, R157, R158: a store puts its word, or its datum bytes, at its address; STCODE stores an INSN word and needs
S. -/
def Obligations.StoreResults : Prop :=
  ∀ (s : State) (h : Hart) (o : IOps) (w b : Word) (c c1 c2 c3 : Chip), named [o.rd, o.rs] → src h o.rd c = .ok w c1 →
    src h o.rs c1 = .ok b c2 → b.tag = 0 ∨ (c2.ptr b = true ∧ c2.glob b = false) →
    (Starts s h (insnStw h o) c → storeWord h (b.dat + o.imm.signExtend 64 * 8) w 3 .word .producible c2 = .ok () c3 →
      exec (.stw h o) s = .next (Ended s h (insnStw h o) .seq c3)) ∧
    (∀ e ∈ ([(Instr.stb, insnStb, 1), (Instr.sth, insnSth, 2), (Instr.stq, insnStq, 4), (Instr.std, insnStd, 8)] :
        List ((Hart → IOps → Instr) × (Hart → IOps → Insn) × Nat)),
      Starts s h (e.2.1 h o) c →
      storeRaw h (c2.hart h).regime (b.dat + o.imm.signExtend 64 * BitVec.ofNat 64 e.2.2) e.2.2 w.dat c2 = .ok () c3 →
      exec (e.1 h o) s = .next (Ended s h (e.2.1 h o) .seq c3)) ∧
    (∀ x : Xl, Starts s h (insnStcode h o) c → 1 ≤ (c.hart h).priv →
      let va := b.dat + o.imm.signExtend 64 * 8
      va.toNat % 8 = 0 → translate (walkerOf h va 3) (c2.hart h).regime ⟨3, true, .other⟩ c2 = .ok x c3 →
      x.mono = none ∨ x.mono = some 0x15 →
      ∀ c4, putWord h (c2.hart h).regime x va 3 ⟨0x15, w.dat⟩ c3 = .ok () c4 →
      exec (.stcode h o) s = .next (Ended s h (insnStcode h o) .seq c4))

/-- R164, R167: LDRSV reserves the word it reads; STCND stores where the reservation is held, drops it, and says in COND
whether it was; TAS returns the old word, stores T and says in COND whether the old TYPE was NIL. -/
def Obligations.AtomicResults : Prop :=
  ∀ (s : State) (h : Hart) (o : IOps) (w b v : Word) (x : Xl) (a : Datum) (c c1 c2 c3 c4 c5 c6 c7 c8 c9 : Chip),
    named [o.rd, o.rs] → a = b.dat + o.imm.signExtend 64 * 8 → a.toNat % 8 = 0 →
    (Starts s h (insnLdrsv h o) c → c.tasStyle h = false → src h o.rs c = .ok b c1 →
      b.tag = 0 ∨ (c1.ptr b = true ∧ c1.glob b = false) → lazySpec h o.rd c1 = .ok () c2 →
      loadWordIn h (c2.hart h).regime a 4 .other false c2 = .ok (w, x) c3 →
      writeSpec h o.rd w (c3.modHart h (fun y => { y with resv := some (BitVec.ofNat 52 (x.pa / 8 * 8)) })) = .ok () c4 →
      exec (.ldrsv h o) s = .next (Ended s h (insnLdrsv h o) .seq c4)) ∧
    (Starts s h (insnStcnd h o) c → c.tasStyle h = false → src h o.rd c = .ok w c1 → src h o.rs c1 = .ok b c2 →
      b.tag = 0 ∨ (c2.ptr b = true ∧ c2.glob b = false) →
      translate (walkerOf h a 4) (c2.hart h).regime ⟨4, true, .other⟩ c2 = .ok x c3 → readAt h x c3 = .ok v c4 →
      isPoison v = false → c4.producible w = true → x.mono = none ∨ x.mono = some w.type → lazyLoad h 9 c4 = .ok () c5 →
      ((c5.hart h).resv = some (BitVec.ofNat 52 (x.pa / 8 * 8)) →
        putWord h (c2.hart h).regime x a 4 w c5 = .ok () c6 →
        setSprM h 0x00F 0x11 ((c6.drain h).modHart h (fun y => { y with resv := none })) = .ok () c7 →
        exec (.stcnd h o) s = .next (Ended s h (insnStcnd h o) .seq c7)) ∧
      ((c5.hart h).resv ≠ some (BitVec.ofNat 52 (x.pa / 8 * 8)) →
        setSprM h 0x00F 0 (c5.modHart h (fun y => { y with resv := none })) = .ok () c7 →
        exec (.stcnd h o) s = .next (Ended s h (insnStcnd h o) .seq c7))) ∧
    (Starts s h (insnTas h o) c → c.tasStyle h = true → src h o.rs c = .ok b c1 →
      b.tag = 0 ∨ (c1.ptr b = true ∧ c1.glob b = false) →
      translate (walkerOf h a 4) (c1.hart h).regime ⟨4, true, .other⟩ c1 = .ok x c2 → readAt h x c2 = .ok w c3 →
      isPoison w = false → lazySpec h o.rd c3 = .ok () c4 → lazyLoad h 9 c4 = .ok () c5 → deliver h x a 4 w c5 = .ok v c6 →
      x.mono = none ∨ x.mono = some 0x05 → putWord h (c1.hart h).regime x a 4 ⟨0x05, 1⟩ c6 = .ok () c7 →
      writeSpec h o.rd v (c7.drain h) = .ok () c8 → setSprM h 0x00F (if v.type = 0x04 then 0x11 else 0) c8 = .ok () c9 →
      exec (.tas h o) s = .next (Ended s h (insnTas h o) .seq c9))

/-- R372, R378–R384: the fences complete once what they wait for is done (earlier loads and stores; FENCE_L closes the
thread's buffer entries, the others empty them), and cache maintenance by address acts on the line its translation names;
by set and way on the line the slot of that level holds, or none; by range on every page of the range. -/
def Obligations.OrderingResults : Prop :=
  ∀ (s : State) (h : Hart) (o : AOps) (c c1 c2 c3 : Chip) (b l : Word) (x : Xl),
    (o.rd = 0 → o.rs = 0 → o.rt = 0 →
      (Starts s h (insnFenceL h o) c → c.loadsDone h = true →
        exec (.fenceL h o) s = .next (Ended s h (insnFenceL h o) .seq (c.closeSb h))) ∧
      (Starts s h (insnFenceS h o) c → c.storesDone h = true →
        exec (.fenceS h o) s = .next (Ended s h (insnFenceS h o) .seq (c.drain h))) ∧
      (Starts s h (insnFenceLs h o) c → c.loadsDone h = true → c.storesDone h = true →
        exec (.fenceLs h o) s = .next (Ended s h (insnFenceLs h o) .seq (c.drain h))) ∧
      (Starts s h (insnFenceG h o) c → c.loadsDone h = true → c.storesDone h = true →
        exec (.fenceG h o) s = .next (Ended s h (insnFenceG h o) .seq (c.drain h)))) ∧
    (named [o.rd, o.rs] → src h o.rs c = .ok b c1 →
      (∀ e ∈ ([(Instr.cleanByAddress, insnCleanAddr, 0), (Instr.invalidateByAddress, insnInvalAddr, 1),
          (Instr.cleanInvalidateByAddress, insnCiAddr, 2)] :
          List ((Hart → AOps → Instr) × (Hart → AOps → Insn) × Nat)),
        Starts s h (e.2.1 h o) c → o.rt = 0 → (e.2.2 = 1 → 1 ≤ (c.hart h).priv) →
        b.tag = 0 ∨ (c1.ptr b = true ∧ c1.glob b = false) →
        translate (walkerOf h b.dat (if e.2.2 = 0 then 2 else 3)) (c1.hart h).regime
          ⟨if e.2.2 = 0 then 2 else 3, decide (e.2.2 ≠ 0), .maint⟩ c1 = .ok x c2 →
        exec (e.1 h o) s = .next (Ended s h (e.2.1 h o) .seq (if x.device then c2 else c2.maintain h x.pa 1 e.2.2 false))) ∧
      (∀ e ∈ ([(Instr.cleanBySetWay, insnCleanSet, 0), (Instr.invalidateBySetWay, insnInvalSet, 1),
          (Instr.cleanInvalidateBySetWay, insnCiSet, 2)] : List ((Hart → AOps → Instr) × (Hart → AOps → Insn) × Nat)),
        Starts s h (e.2.1 h o) c → o.rt = 0 → (c.hart h).priv = 3 → b.tag = 0 → selectorOk b.dat = true →
        let at_ := c1.caches.slotAt (levelOf h (fld b.dat 31 28)).1 (levelOf h (fld b.dat 31 28)).2 (fld b.dat 27 14) (fld b.dat 3 0)
        (at_ = none → exec (e.1 h o) s = .next (Ended s h (e.2.1 h o) .seq c1)) ∧
        (∀ k : Slot, at_ = some k →
          let y := c1.caches.maintainSlot c1.cacheEnv k (Config.freeNat c1.fresh) e.2.2
          exec (e.1 h o) s = .next (Ended s h (e.2.1 h o) .seq (if e.2.2 = 1 then c1.setDropped k.line y else c1.setCaches y)))) ∧
      (∀ e ∈ ([(Instr.cleanByRange, insnCleanRange, 0x48), (Instr.invalidateByRange, insnInvalRange, 0x49),
          (Instr.cleanInvalidateByRange, insnCiRange, 0x4A)] :
          List ((Hart → AOps → Instr) × (Hart → AOps → Insn) × Nat)),
        Starts s h (e.2.1 h o) c → o.rt.toNat < 52 → 1 ≤ (c.hart h).priv → src h o.rt c1 = .ok l c2 →
        b.tag = 0 ∨ (c2.ptr b = true ∧ c2.glob b = false) → l.tag = 0 → l.dat.toNat ≤ 2 ^ 40 → l.dat ≠ 0 →
        rangeGo h e.2.2 b.dat (b.dat.toNat + l.dat.toNat) (l.dat.toNat / 2 ^ 16 + 2)
          ((c2.hart h).rangeFrom e.2.2 b.dat l.dat.toNat) c2 = .ok () c3 →
        exec (e.1 h o) s = .next (Ended s h (e.2.1 h o) .seq
          (c3.modHart h (fun y => y.setSpr 0x118 (setFld (y.sprD 0x118) 63 63 0))))))

/-- R171, R172: TUBPOP takes the oldest entry, once it has arrived, to rd; TUBCNT counts the entries. -/
def Obligations.TubResults : Prop :=
  ∀ (s : State) (h : Hart) (o : AOps) (c c1 c2 d : Chip), o.rs = 0 → o.rt = 0 → o.rd.toNat < 52 →
    (∀ (e : TubEntry) (rest : List TubEntry) (w v : Word), Starts s h (insnTubpop h o) c → (c.hart h).tub = e :: rest →
      e.val = .word w → lazySpec h o.rd c = .ok () c1 → meetTub h e w (c1.modHart h (fun x => { x with tub := rest })) = .ok v c2 →
      isPoison v = false → c2.wellFormed v = true → writeSpec h o.rd v c2 = .ok () d →
      exec (.tubpop h o) s = .next (Ended s h (insnTubpop h o) .seq d)) ∧
    (Starts s h (insnTubpop h o) c → (c.hart h).tub = [] →
      exec (.tubpop h o) s = .next (Trapped s h (insnTubpop h o) { cause := 0x17 } c)) ∧
    (Starts s h (insnTubcnt h o) c → writeSpec h o.rd (.raw (BitVec.ofNat 64 (c.hart h).tub.length)) c = .ok () d →
      exec (.tubcnt h o) s = .next (Ended s h (insnTubcnt h o) .seq d))

/-- R174, R175, R426, R433: a Stope operation whose operands and address check out goes to its controller, and the thread
waits for it where its result goes to a register. -/
def Obligations.StopeIssue : Prop :=
  ∀ (s : State) (h : Hart) (o : AOps) (tub noret : Bool) (mode : BitVec 3) (b w e : Word) (x : Xl) (d : Dest)
    (c c1 c2 c3 c4 c5 c6 : Chip), named [o.rd, o.rs, o.rt] → src h o.rs c = .ok b c1 → src h o.rt c1 = .ok w c2 →
    (∀ i ∈ ([(Instr.afadd, 0), (Instr.acas, 1), (Instr.axchg, 2), (Instr.aor, 3), (Instr.abump, 4)] :
        List ((Hart → AOps → Bool → Bool → BitVec 3 → Instr) × Nat)),
      Starts s h (insnAtomic h o i.2 tub noret mode) c → mode = 0 → ¬(tub = true ∧ noret = true) →
      (noret = true → o.rd = 0) →
      (if i.2 = 1 then src h o.rd c2 = .ok e c3 else e = .raw 0 ∧ c3 = c2) →
      b.tag = 0 ∨ (c3.ptr b = true ∧ c3.glob b = false) →
      (i.2 = 0 → w.type.toNat ≤ 1) → (i.2 = 3 → c3.ptr w = false) →
      (i.2 = 4 → w.tag = 0 ∧ c3.ptr ⟨(w.dat.extractLsb' 0 6).zeroExtend 8, 0⟩ = true ∧ fld w.dat 7 6 = 0 ∧
        fld w.dat 63 48 = 0) →
      b.dat.toNat % (if i.2 = 4 then 16 else 8) = 0 →
      translate (walkerOf h b.dat 4) (c3.hart h).regime ⟨4, true, .other⟩ c3 = .ok x c4 →
      (i.2 = 1 ∨ i.2 = 2 → c4.producible w = true ∧ (x.mono = none ∨ x.mono = some w.type)) →
      (tub = true → (c4.hart h).tub.length < 32) →
      destOf h o.rd tub noret b.dat c4 = .ok d c5 → sendStope h i.2 mode b.dat x e w (.raw 0) d none c5 = .ok () c6 →
      exec (i.1 h o tub noret mode) s =
        .next (Ended s h (insnAtomic h o i.2 tub noret mode) (afterIssue d .stope) c6)) ∧
    (Starts s h (insnAwalk h o tub noret mode) c → noret = false → mode.toNat < 3 → b.type = 0x08 →
      b.dat.toNat % 8 = 0 → (mode = 2 → w.type = 0x01 ∧ 0 ≤ w.dat.toInt ∧ w.dat.toInt ≤ 4096) →
      translate (walkerOf h b.dat 2) (c2.hart h).regime ⟨2, false, .other⟩ c2 = .ok x c3 →
      (tub = true → (c3.hart h).tub.length < 32) → destOf h o.rd tub false b.dat c3 = .ok d c4 →
      sendStope h 5 mode b.dat x (.raw 0) w b d (headResult mode b w x) c4 = .ok () c5 →
      exec (.awalk h o tub noret mode) s =
        .next (Ended s h (insnAwalk h o tub noret mode) (afterIssue d .stope) c5))

/-- R174–R177, R540: a remote operation on a word whose type is global is issued in the thread's partition; GLD, and GAMO
to a register, wait for their answer. -/
def Obligations.RemoteIssue : Prop :=
  ∀ (s : State) (h : Hart) (g w e : Word) (d : Dest) (c c1 c2 c3 c4 c5 : Chip),
    (∀ o : IOps, Starts s h (insnGld h o) c → named [o.rd, o.rs] → src h o.rs c = .ok g c1 → c1.glob g = true →
      let a := (g.dat + o.imm.signExtend 64 * 8) &&& 0x3FFFFFFFFFFF
      destOf h o.rd false false a c1 = .ok d c2 → issue h 1 g.dat a [] d 0 c2 = .ok () c3 →
      exec (.gld h o) s = .next (Ended s h (insnGld h o) (.issued .remote) c3)) ∧
    (∀ o : IOps, Starts s h (insnGst h o) c → named [o.rd, o.rs] → src h o.rd c = .ok w c1 → src h o.rs c1 = .ok g c2 →
      c2.glob g = true → c2.producible w = true →
      issue h 2 g.dat ((g.dat + o.imm.signExtend 64 * 8) &&& 0x3FFFFFFFFFFF) [w] .none 0 c2 = .ok () c3 →
      exec (.gst h o) s = .next (Ended s h (insnGst h o) .seq c3)) ∧
    (∀ i ∈ ([(Instr.gamoFadd, 0), (Instr.gamoCas, 1), (Instr.gamoXchg, 2), (Instr.gamoOr, 3)] :
        List ((Hart → AOps → Bool → Instr) × Nat)),
      ∀ (o : AOps) (tub : Bool), Starts s h (insnGamo h o i.2 tub) c → named [o.rd, o.rs, o.rt] →
      src h o.rs c = .ok g c1 → src h o.rt c1 = .ok w c2 → (if i.2 = 1 then src h o.rd c2 = .ok e c3 else c3 = c2) →
      c3.glob g = true → (i.2 = 0 → w.type.toNat ≤ 1) → (i.2 = 3 → c3.ptr w = false) →
      (i.2 = 1 ∨ i.2 = 2 → c3.producible w = true) → (tub = true → (c3.hart h).tub.length < 32) →
      destOf h o.rd tub false (g.dat &&& 0x3FFFFFFFFFFF) c3 = .ok d c4 →
      issue h (3 + i.2) g.dat (g.dat &&& 0x3FFFFFFFFFFF) (if i.2 = 1 then [e, w] else [w]) d 0 c4 = .ok () c5 →
      exec (i.1 h o tub) s = .next (Ended s h (insnGamo h o i.2 tub) (afterIssue d .remote) c5)) ∧
    (∀ (o : AOps) (n : BitVec 4) (ws : List Word), Starts s h (insnSend h o n) c → n.toNat ≤ 8 → o.rd = 0 → o.rt = 0 →
      o.rs.toNat < 52 → src h o.rs c = .ok g c1 →
      (List.range n.toNat).mapM (fun i => src h (BitVec.ofNat 6 (16 + i))) c1 = .ok ws c2 → g.tag = 0 →
      (∀ v ∈ ws, c2.producible v = true ∧ (c2.ptr v = true → c2.glob v = true)) → fld g.dat 44 32 = 0 → fld g.dat 15 11 = 0 →
      issue h 7 g.dat g.dat ws .none (g.dat.extractLsb' 16 16) c2 = .ok () c3 →
      exec (.send h o n) s = .next (Ended s h (insnSend h o n) .seq c3))

/-- R91, R148, R179, R301, R302: BR is taken exactly where its condition holds in COND; a call advances the window with the
next instruction's CODE pointer in RLINK, pushing it on the shadow stack where one is in use; RET compares and retreats;
JMPL links in rd. A transfer taken leaves its trace record (R666). -/
def Obligations.TransferResults : Prop :=
  ∀ (s : State) (h : Hart) (c c1 c2 c3 : Chip),
    (∀ (cond : BitVec 4) (disp : BitVec 22) (taken : Bool), Starts s h (insnBr h cond disp) c →
      (if cond = 0 then c1 = c else lazyLoad h 9 c = .ok () c1) →
      (let v := (c1.hart h).sprD 0x00F
       some taken = [some true, some (v.getLsbD 0), some (!v.getLsbD 0), some (v.getLsbD 1),
        some (!v.getLsbD 1 && !v.getLsbD 3), some (v.getLsbD 1 || v.getLsbD 0),
        some (!v.getLsbD 1 && !v.getLsbD 0 && !v.getLsbD 3), some (v.getLsbD 2), some (!v.getLsbD 2),
        some (v.getLsbD 3), some (v.getLsbD 4), some (!v.getLsbD 4), none, none, none, none].getD cond.toNat none) →
      let target := (c1.hart h).pc + disp.signExtend 64 * 4
      exec (.br h cond disp) s = .next (if taken then
          Ended s h (insnBr h cond disp) (.jump target) (c1.trace h 1 (c1.hart h).pc (pcForm target) 0)
        else Ended s h (insnBr h cond disp) .seq c1)) ∧
    (∀ disp : BitVec 22, Starts s h (insnCall h 0 disp) c → (c.hart h).resident ≠ 15 →
      lazyWindow h c = .ok () c1 → shadowPush h ⟨0x12, pcForm ((c1.hart h).pc + 4)⟩ c1 = .ok () c2 →
      let target := (c.hart h).pc + disp.signExtend 64 * 4
      exec (.call h 0 disp) s = .next (Ended s h (insnCall h 0 disp) (.jump target)
        ((c2.trace h 1 (c2.hart h).pc (pcForm target) 0).modHart h
          (fun x => x.advance ⟨0x12, pcForm ((c1.hart h).pc + 4)⟩)))) ∧
    (∀ (o : AOps) (w : Word), Starts s h (insnCallReg h o) c → o.rd = 0 → o.rt = 0 → o.rs.toNat < 52 →
      src h o.rs c = .ok w c1 → w.type = 0x12 → (c1.hart h).resident ≠ 15 → lazyWindow h c1 = .ok () c2 →
      shadowPush h ⟨0x12, pcForm ((c2.hart h).pc + 4)⟩ c2 = .ok () c3 →
      exec (.callReg h o) s = .next (Ended s h (insnCallReg h o) (.jump w.dat)
        ((c3.trace h 1 (c3.hart h).pc (pcForm w.dat) 0).modHart h
          (fun x => x.advance ⟨0x12, pcForm ((c2.hart h).pc + 4)⟩)))) ∧
    (∀ (o : AOps) (w : Word), Starts s h (insnRet h o) c → o.rd = 0 → o.rs = 0 → o.rt = 0 →
      (c.hart h).resident ≠ 1 → lazyWindow h c = .ok () c1 → readPreg h (400 + (c1.hart h).cwp) c1 = .ok w c2 →
      w.type = 0x12 → shadowCompare h w c2 = .ok () c3 →
      exec (.ret h o) s = .next (Ended s h (insnRet h o) (.jump w.dat)
        ((c3.trace h 1 (c3.hart h).pc (pcForm w.dat) 0).modHart h HartSt.retreat))) ∧
    (∀ (o : IOps) (w : Word), Starts s h (insnJmpl h o) c → named [o.rd, o.rs] → src h o.rs c = .ok w c1 →
      w.type = 0x12 → writeSpec h o.rd ⟨0x12, pcForm ((c1.hart h).pc + 4)⟩ c1 = .ok () c2 →
      let target := w.dat + o.imm.signExtend 64 * 4
      exec (.jmpl h o) s = .next (Ended s h (insnJmpl h o) (.jump target)
        (c2.trace h 1 (c2.hart h).pc (pcForm target) 0)))

/-- R298, R299: SYSCALL advances the window, saves the next PC and PSTATE, exchanges SP with SYS_ENTRY_SP, enters S with
IE, LDEPTH and REPA 0 and goes to SYS_ENTRY; SYSRET undoes it. -/
def Obligations.SystemCallResults : Prop :=
  ∀ (s : State) (h : Hart) (o : AOps) (c c1 c2 c3 : Chip), o.rd = 0 → o.rs = 0 → o.rt = 0 →
    serialise h c = .ok () c1 →
    (Starts s h (insnSyscall h o) c → (c.hart h).priv = 0 → (c1.hart h).resident ≠ 15 → lazyWindow h c1 = .ok () c2 →
      lazyLoad h 9 c2 = .ok () c3 → ∃ d, exec (.syscall h o) s =
          .next (Ended s h (insnSyscall h o) (.jump ((c3.hart h).sprD 0x009)) d) ∧
        (d.hart h).sprW 0x00B = ⟨0x12, pcForm ((c3.hart h).pc + 4)⟩ ∧ (d.hart h).sprD 0x00C = (c3.hart h).pstate ∧
        (d.hart h).sp = (c3.hart h).sprD 0x00A ∧ (d.hart h).sprD 0x00A = (c3.hart h).sp ∧ (d.hart h).priv = 1 ∧
        (d.hart h).ie = false ∧ (d.hart h).ldepth = 0 ∧ (d.hart h).repa = false ∧
        (d.hart h).cwp = ((c3.hart h).cwp + 1) % 16 ∧ (d.hart h).resident = ((c3.hart h).resident + 1) % 32) ∧
    (Starts s h (insnSysret h o) c → 1 ≤ (c.hart h).priv → lazyLoad h 9 c1 = .ok () c2 → (c2.hart h).sysretOk = true →
      ((c2.hart h).sprW 0x00B).type = 0x12 → (c2.hart h).resident ≠ 1 → lazyWindow h c2 = .ok () c3 →
      ∃ d, exec (.sysret h o) s = .next (Ended s h (insnSysret h o) (.jump ((c2.hart h).sprD 0x00B)) d) ∧
        (d.hart h).pstate = (c3.hart h).sprD 0x00C ∧ (d.hart h).sp = (c3.hart h).sprD 0x00A ∧
        (d.hart h).sprD 0x00A = (c3.hart h).sp ∧ (d.hart h).cwp = ((c3.hart h).cwp + 15) % 16)

/-- R289, R294: ERET restores what its frame of 16 words holds, the words having been loaded: PC, PSTATE, SP, COND. -/
def Obligations.EretRestores : Prop :=
  ∀ (s : State) (h : Hart) (o : AOps) (c c1 d : Chip) (pc : Datum), o.rd = 0 → o.rs = 0 → o.rt = 0 →
    Starts s h (insnEret h o) c → 1 ≤ (c.hart h).priv → serialise h c = .ok () c1 → eretBody h c1 = .ok pc d →
    exec (.eret h o) s = .next (Ended s h (insnEret h o) (.jump pc) d) ∧
    (∀ (ws : List Word) (e : Chip), (c1.hart h).active = 0 →
      (List.range 16).mapM (fun i => loadWord h ((c1.hart h).sp + BitVec.ofNat 64 (8 * i)) 7) c1 = .ok ws e →
      pc = ((ws[0]?).getD (Word.raw 0)).dat ∧ (d.hart h).pstate = ((ws[1]?).getD (Word.raw 0)).dat ∧
      (d.hart h).sp = ((ws[9]?).getD (Word.raw 0)).dat ∧ (d.hart h).sprD 0x00F = ((ws[10]?).getD (Word.raw 0)).dat &&& 31)

/-- R268: TRAP raises SOFTWARE_TRAP with its imm14 in DETAIL and the next instruction as saved PC; every loop level's
LSTART, LEND and LCOUNT stay as they are. -/
def Obligations.SoftwareTrap : Prop :=
  ∀ (s : State) (h : Hart) (o : IOps) (c : Chip), Starts s h (insnTrap o) c → o.rd = 0 → o.rs = 0 →
    exec (.trap h o) s = .next (Trapped s h (insnTrap o) { cause := 0x1B, detail := o.imm.toNat } c) ∧
    ∀ n : Nat, 0x040 ≤ n → n ≤ 0x04B →
      ((Trapped s h (insnTrap o) { cause := 0x1B, detail := o.imm.toNat } c).chip.hart h).sprW n = (c.hart h).sprW n

/-- R180, R181: WAITT at a target already reached sets COND true and goes on, and otherwise waits; it ends at its target
with Z = 1; WFI waits after itself where no interrupt is pending, and otherwise goes on. -/
def Obligations.WaitResults : Prop :=
  ∀ (s : State) (h : Hart) (o : AOps) (w : Word) (c c1 c2 c3 : Chip), o.rd = 0 → o.rt = 0 →
    (Starts s h (insnWaitt h o) c → o.rs.toNat < 52 → src h o.rs c = .ok w c1 → w.tag = 0 → serialise h c1 = .ok () c2 →
      (reached (c2.time.counter.extractLsb' 16 64) w.dat = true → setSprM h 0x00F 0x11 c2 = .ok () c3 →
        exec (.waitt h o) s = .next (Ended s h (insnWaitt h o) .seq c3)) ∧
      (reached (c2.time.counter.extractLsb' 16 64) w.dat = false →
        Yields (.waitt h o) s (fun t => (t.hart h).run = .waitt w.dat ∧ (t.hart h).pc = (c2.hart h).pc))) ∧
    (∀ t : Datum, (s.chip.hart h).run = .waitt t → s.chip.hartDom h = .on → s.chip.coreOk h = true → s.chip.acceptable h = none →
      s.chip.haltDue h = false → reached (s.chip.time.counter.extractLsb' 16 64) t = true →
      (s.chip.hart h).pending 9 = false → (s.chip.hart h).dbgStep = false →
      Yields (.waittComplete h) s (fun u => (u.hart h).run = .run ∧ (u.hart h).sprD 0x00F = 0x11)) ∧
    (Starts s h (insnWfi h o) c → o.rs = 0 → 1 ≤ (c.hart h).priv → serialise h c = .ok () c1 →
      exec (.wfi h o) s = .next (Ended s h (insnWfi h o) .seq
        (if c1.intPend h = 0 then c1.modHart h (fun x => { x with run := .wfi }) else c1)))

/-- R106, R110, R111: LSETUP pushes a loop level, or with a count of 0 skips the body; REP begins its repetitions, or with
a count of 0 skips the next instruction; under REP a REP_REPETITION executes the instruction at the PC. -/
def Obligations.LoopResults : Prop :=
  ∀ (s : State) (h : Hart) (o : IOps) (w : Word) (c c1 c2 c3 : Chip), o.rd = 0 → o.rs.toNat < 52 →
    (Starts s h (insnLsetup h o) c → o.imm ≠ 0 → src h o.rs c = .ok w c1 → w.type = 0x01 ∨ w.tag = 0 →
      w.dat.toNat < 2 ^ 32 → (c1.hart h).ldepth < 4 →
      let x := c1.hart h
      let last := pcForm (x.pc + o.imm.zeroExtend 64 * 4)
      (w.dat = 0 → exec (.lsetup h o) s = .next (Ended s h (insnLsetup h o) (.jump (last + 4)) c1)) ∧
      (w.dat ≠ 0 → ∃ d, exec (.lsetup h o) s = .next (Ended s h (insnLsetup h o) .seq d) ∧
        (d.hart h).ldepth = x.ldepth + 1 ∧ (d.hart h).sprD (0x040 + x.ldepth) = pcForm (x.pc + 4) ∧
        (d.hart h).sprD (0x044 + x.ldepth) = last ∧ fld ((d.hart h).sprD (0x048 + x.ldepth)) 31 0 = w.dat.toNat)) ∧
    (∀ n : Option (BitVec 32), Starts s h (insnRep h o) c → o.rs = 48 ∨ o.imm = 0 → nextWord h c = .ok n c1 →
      (c1.hart h).atLoopEnd = false → n.any repForbids = false →
      (if o.rs = 48 then c2 = c1 ∧ w = .raw (o.imm.zeroExtend 64)
        else src h o.rs c1 = .ok w c2 ∧ (w.type = 0x01 ∨ w.tag = 0) ∧ w.dat.toNat < 2 ^ 16) →
      (w.dat ≠ 0 → ∃ d, exec (.rep h o) s = .next (Ended s h (insnRep h o) (.jump (pcForm ((c2.hart h).pc + 4))) d) ∧
        (d.hart h).repa = true ∧ fld ((d.hart h).sprD 0x04C) 15 0 = w.dat.toNat) ∧
      (w.dat = 0 → (c2.hart h).ldepth = 0 →
        ∃ d, exec (.rep h o) s = .next (Ended s h (insnRep h o) (.jump (pcForm ((c2.hart h).pc + 4) + 4)) d))) ∧
    (s.chip.ready h = true → (s.chip.hart h).repa = true → (s.chip.hart h).tramMode = false →
      exec (.repRepetition h) s = .next { s with chip := (s.chip.execute h (s.chip.atPc h)).settle })

/-- R114, R117–R122: the context instructions complete once the thread's tub is empty and the save area is 64-aligned, their
accesses succeeding; CTXSW saves both halves on the old area, takes the new one, and restores both from it. -/
def Obligations.ContextResults : Prop :=
  ∀ (s : State) (h : Hart) (o : AOps) (c c1 c2 c3 c4 c5 c6 c7 : Chip), o.rd = 0 → o.rt = 0 → 1 ≤ (c.hart h).priv →
    (∀ e ∈ ([(Instr.saveu, insnSaveu, saveUpper, false), (Instr.savel, insnSavel, saveLower, false),
        (Instr.rstru, insnRstru, restoreUpper, false), (Instr.rstrl, insnRstrl, restoreLower, true)] :
        List ((Hart → AOps → Instr) × (Hart → AOps → Insn) × (Hart → Datum → M Unit) × Bool)),
      Starts s h (e.2.1 h o) c → o.rs = 0 → (c.hart h).tub = [] → ((c.hart h).sprD 0x080).toNat % 64 = 0 →
      (if e.2.2.2 then serialise h c = .ok () c1 else c1 = c) → e.2.2.1 h ((c.hart h).sprD 0x080) c1 = .ok () c2 →
      exec (e.1 h o) s = .next (Ended s h (e.2.1 h o) .seq c2)) ∧
    (∀ (w : Word) (new : Datum), Starts s h (insnCtxsw h o) c → o.rs.toNat < 52 → src h o.rs c = .ok w c1 → w.tag = 0 →
      (c1.hart h).tub = [] → ((c1.hart h).sprD 0x080).toNat % 64 = 0 → serialise h c1 = .ok () c2 →
      saveUpper h ((c1.hart h).sprD 0x080) c2 = .ok () c3 → saveLower h ((c1.hart h).sprD 0x080) c3 = .ok () c4 →
      (if o.rs = 48 then getCtl h ((c1.hart h).sprD 0x080) c4 = .ok new c5 else new = w.dat ∧ c5 = c4) →
      new.toNat % 64 = 0 → restoreLower h new (c5.modHart h (fun x => x.setSpr 0x080 new)) = .ok () c6 →
      restoreUpper h new c6 = .ok () c7 →
      exec (.ctxsw h o) s = .next (Ended s h (insnCtxsw h o) .seq
        (c7.trace h 4 ((c7.hart h).sprD 0x007) ((c7.hart h).sprD 0x110) ((c7.hart h).sprD 0x080))))

/-- R131, R132: RDSPR delivers a special register it may read; WRSPR writes one it may write: a register whose 64 bits are
all writable takes the source's datum, and HOSTSIG triggers its vector (R578). -/
def Obligations.SpecialRegisterResults : Prop :=
  ∀ (s : State) (h : Hart) (o : IOps) (w : Word) (c c1 c2 c3 : Chip), o.imm.toNat < 2 ^ 12 →
    (Starts s h (insnRdspr h o) c → o.rs = 0 → o.rd.toNat < 52 →
      (∀ p q, sprPriv o.imm.toNat = some (p, q) → p ≤ (c.hart h).priv → o.imm.toNat ≠ 0x122 →
        sprValue h o.imm.toNat c = .ok w c1 → isPoison w = false → c1.wellFormed w = true → writeSpec h o.rd w c1 = .ok () c2 →
        exec (.rdspr h o) s = .next (Ended s h (insnRdspr h o) .seq c2)) ∧
      (sprPriv o.imm.toNat = none → exec (.rdspr h o) s = .next (Trapped s h (insnRdspr h o) { cause := 0x02 } c)) ∧
      (∀ p q, sprPriv o.imm.toNat = some (p, q) → (c.hart h).priv < p →
        exec (.rdspr h o) s = .next (Trapped s h (insnRdspr h o) { cause := 0x03 } c))) ∧
    (Starts s h (insnWrspr h o) c → o.rd = 0 → o.rs.toNat < 52 → src h o.rs c = .ok w c1 →
      (∀ p f, sprPriv o.imm.toNat = some (p, some f) → f ≤ (c.hart h).priv → f ≤ (c1.hart h).priv →
        o.imm.toNat ∈ [0x003, 0x004, 0x005, 0x008, 0x009, 0x00A, 0x00C, 0x04F, 0x082, 0x083, 0x101, 0x102, 0x103, 0x120] →
        setSprM h o.imm.toNat w.dat c1 = .ok () c2 →
        exec (.wrspr h o) s = .next (Ended s h (insnWrspr h o) .seq c2)) ∧
      (∀ p, sprPriv o.imm.toNat = none ∨ (sprPriv o.imm.toNat = some (p, none) ∧ p ≤ (c.hart h).priv) →
        exec (.wrspr h o) s = .next (Trapped s h (insnWrspr h o) { cause := 0x02 } c)) ∧
      (∀ p q, sprPriv o.imm.toNat = some (p, q) → (c.hart h).priv < q.getD p →
        exec (.wrspr h o) s = .next (Trapped s h (insnWrspr h o) { cause := 0x03 } c))) ∧
    (∀ rs : BitVec 6, rs.toNat < 52 → src h rs c = .ok w c1 →
      (Starts s h (insnWrspr h ⟨0, rs, 0x134⟩) c → 1 ≤ (c.hart h).priv → 1 ≤ (c1.hart h).priv → w.dat.toNat < 2048 →
        exec (.hostsig h rs) s = .next (Ended s h (insnWrspr h ⟨0, rs, 0x134⟩) .seq (c1.msix w.dat.toNat))) ∧
      (Starts s h (insnWrspr h ⟨0, rs, 0x133⟩) c → 1 ≤ (c.hart h).priv → 1 ≤ (c1.hart h).priv →
        exec (.timerCmpArm h rs) s = .next (Ended s h (insnWrspr h ⟨0, rs, 0x133⟩) .seq
          (c1.modHart h (fun x => { x.setSpr 0x133 w.dat with timerArmed := true })))) ∧
      (Starts s h (insnWrspr h ⟨0, rs, 0x104⟩) c → 1 ≤ (c.hart h).priv → 1 ≤ (c1.hart h).priv →
        bit ((s.chip.hart h).look rs).dat 0 = true → bit w.dat 0 = true →
        ∃ d, exec (.softInterruptSet h rs) s = .next (Ended s h (insnWrspr h ⟨0, rs, 0x104⟩) .seq d) ∧
          (d.hart h).sprD 0x104 = (c1.hart h).sprD 0x104 ||| 1) ∧
      (Starts s h (insnWrspr h ⟨0, rs, 0x080⟩) c → 1 ≤ (c.hart h).priv → 1 ≤ (c1.hart h).priv →
        serialise h c1 = .ok () c2 → lazyAll h c2 = .ok () c3 →
        ∃ d, exec (.ctxLinkWrite h rs) s = .next (Ended s h (insnWrspr h ⟨0, rs, 0x080⟩) .seq d) ∧
          (d.hart h).sprD 0x080 = w.dat ∧ (d.hart h).sprD 0x081 = (c3.hart h).sprD 0x081 ||| 0xFFFF))

/-- R343–R345: a TLBI write that names its operation, is permitted and finds no access outstanding in its scope drops every
cached translation and table entry it names of the issuing core, or, broadcast, of every core and Stope unit. -/
def Obligations.TlbiResults : Prop :=
  ∀ e ∈ ([(Instr.tlbiVaAsid, 0), (Instr.tlbiVaAllAsid, 1), (Instr.tlbiAsid, 2), (Instr.tlbiStage1, 3), (Instr.tlbiIpa, 4),
      (Instr.tlbiVmid, 5), (Instr.tlbiHVa, 6), (Instr.tlbiHAll, 7), (Instr.tlbiAll, 8)] :
      List ((Hart → BitVec 6 → Instr) × Nat)),
    ∀ (s : State) (h : Hart) (rs : BitVec 6) (w : Word) (c c1 c2 : Chip),
      Starts s h (insnWrspr h ⟨0, rs, 0x114⟩) c → rs.toNat < 52 → fld ((s.chip.hart h).look rs).dat 47 44 = e.2 →
      src h rs c = .ok w c1 → fld w.dat 47 44 = e.2 → 1 ≤ (c.hart h).priv → 1 ≤ (c1.hart h).priv →
      serialise h c1 = .ok () c2 → (4 ≤ e.2 → (c2.hart h).priv = 3) → fld w.dat 42 39 = 0 →
      (e.2 = 4 → fld w.dat 38 36 = 0) → c2.tlbiBusy h w.dat = false →
      exec (e.1 h rs) s = .next (Ended s h (insnWrspr h ⟨0, rs, 0x114⟩) .seq (c2.tlbi h w.dat)) ∧
      (∀ t, t ∈ (c2.tlbi h w.dat).tlb → (bit w.dat 43 = true ∨ t.owner = (coreOf h).toNat) →
        tlbiDrops w.dat ((c2.hart h).sprD 0x110) t = false) ∧
      (∀ t, t ∈ (c2.tlbi h w.dat).tables → (bit w.dat 43 = true ∨ t.owner = (coreOf h).toNat) →
        tableDrops w.dat ((c2.hart h).sprD 0x110) t = false)

/-- R498, R502, R504, R505: an ARRIVE of a member sets PEND and enters the Cage, an ALERT of S or H enters it; without a
token the injection is held and the thread waits. -/
def Obligations.CageInjection : Prop :=
  ∀ (s : State) (h : Hart) (rs : BitVec 6) (w : Word) (c c1 : Chip), Starts s h (insnWrspr h ⟨0, rs, 0x121⟩) c →
    rs.toNat < 52 → src h rs c = .ok w c1 → fld w.dat 63 6 = 0 →
    (let g := fld w.dat 3 0
     let m := fun (k : BitVec 2) => (⟨k, BitVec.ofNat 4 g, h, (c1.hart h).sprD 0x120⟩ : CageMsg)
     bit (c1.reg (grpAt g)) 63 = true → c1.rf (grpAt g) 27 16 = (c1.hart h).vmid.toNat → c1.member g h = true →
     (fld ((s.chip.hart h).look rs).dat 5 4 = 0 → fld w.dat 5 4 = 0 → bit ((c1.hart h).sprD 0x123) 0 = false →
       let d := c1.modHart h (fun x => x.setSpr 0x123 (setFld (setFld (x.sprD 0x123) 7 4 g) 0 0 1))
       exec (.arrive h rs) s = .next (if d.hasToken h.toNat
         then Ended s h (insnWrspr h ⟨0, rs, 0x121⟩) .seq (d.inject (m 0))
         else Ended s h (insnWrspr h ⟨0, rs, 0x121⟩) (.issued .cage) (d.hold (m 0)))) ∧
     (fld ((s.chip.hart h).look rs).dat 5 4 = 1 → fld w.dat 5 4 = 1 → (c1.hart h).priv ≠ 0 →
       exec (.alert h rs) s = .next (if c1.hasToken h.toNat
         then Ended s h (insnWrspr h ⟨0, rs, 0x121⟩) .seq (c1.inject (m 1))
         else Ended s h (insnWrspr h ⟨0, rs, 0x121⟩) (.issued .cage) (c1.hold (m 1)))))

/-- R490, R491, R499, R500, R502, R504, R505, R509: an entry moves to the node above, merging there, and at the root the
first copy of each of its messages acts; a full round ends for every member whose ARRIVE is in it, with the value its OP
names; alerts reach a hart; a refilled bucket sends what it holds; a rail whose flit cannot be corrected, or that is found
failed, fails. -/
def Obligations.CageResults : Prop :=
  ∀ s : State,
    (∀ (idx : Nat) (rail : Bool) (f : Flit), s.chip.cageMsgs[idx]? = some f → f.rail = none ∨ f.rail = some rail →
      (f.rail = some rail → s.chip.flitFault rail < 2) →
      Yields (.cageMessageMerge idx rail) s (fun t =>
        (f.rail ≠ none → f.node.up ≠ .root →
          t.cageMsgs = queueFlit (s.chip.cageMsgs.eraseIdx idx) { f with node := f.node.up } ∧ t.rounds = s.chip.rounds ∧
          t.alerts = s.chip.alerts) ∧
        (f.rail = none ∨ f.node.up = .root → t.cageMsgs = s.chip.cageMsgs.eraseIdx idx ∧
          (f.kind = 0 → (sget t.rounds f.g.toNat ⟨[]⟩).contrib = (sget s.chip.rounds f.g.toNat ⟨[]⟩).contrib ++
            (f.parts.filter (fun p => !s.chip.acted.contains p.1)).map (fun p => (p.2.1, p.2.2))) ∧
          (f.kind ≠ 0 → t.rounds = s.chip.rounds)))) ∧
    (∀ (idx : Nat) (rail : Bool) (f : Flit), s.chip.cageMsgs[idx]? = some f → f.rail = some rail →
      2 ≤ s.chip.flitFault rail → s.chip.railState rail = 1 → s.chip.hdf.resetHeld = false →
      Yields (.cageMessageMerge idx rail) s (fun t => t.railState rail = 2)) ∧
    (∀ g : BitVec 4, s.chip.rf (grpAt g.toNat) 3 3 = 1 → s.chip.roundFull g.toNat = true →
      let l := (sget s.chip.rounds g.toNat ⟨[]⟩).contrib.filter (fun e => !s.chip.hartOff e.1)
      let op := s.chip.rf (grpAt g.toNat) 2 0
      let n := (s.chip.rf (grpAt g.toNat) 47 32 + 1) % 2 ^ 16
      let sum := (l.map (fun e => e.2.toInt)).sum
      Yields (.roundResultDelivery g) s (fun t => sget t.rounds g.toNat ⟨[]⟩ = ⟨[]⟩ ∧ t.rf (grpAt g.toNat) 47 32 = n ∧
        ∀ e ∈ l, bit ((t.hart e.1).sprD 0x123) 0 = false ∧ fld ((t.hart e.1).sprD 0x123) 63 48 = n ∧
          (bit ((t.hart e.1).sprD 0x123) 1 = true ↔ op = 1 ∧ (sum < -(2 ^ 63) ∨ 2 ^ 63 ≤ sum)) ∧
          (let w := (t.hart e.1).sprW 0x122
           (op = 0 → w = .raw (BitVec.ofNat 64 n)) ∧ (op = 1 → w = ⟨0x01, BitVec.ofInt 64 sum⟩) ∧
           (op = 2 → w.tag = 0x01 ∧ w.dat ∈ l.map (fun e => e.2) ∧ ∀ d ∈ l, w.dat.toInt ≤ d.2.toInt) ∧
           (op = 3 → w.tag = 0x01 ∧ w.dat ∈ l.map (fun e => e.2) ∧ ∀ d ∈ l, d.2.toInt ≤ w.dat.toInt) ∧
           (op = 4 → w.tag = 0 ∧ ∀ i : Nat, w.dat.getLsbD i = l.any (fun e => e.2.getLsbD i))))) ∧
    (∀ (g : BitVec 4) (h : Hart), let mine := s.chip.alerts.filter (fun a => decide (a.1 = g) && decide (a.2.1 = h))
      mine ≠ [] → Yields (.cageIrq h g) s (fun t =>
        t.alerts = s.chip.alerts.filter (fun a => !(decide (a.1 = g) && decide (a.2.1 = h))) ∧
        (s.chip.hartOff h = false → ∀ i : Nat, (sget (t.hart h).pCage g.toNat 0).getLsbD i =
          ((sget (s.chip.hart h).pCage g.toNat 0).getLsbD i || mine.any (fun a => a.2.2.getLsbD i))) ∧
        (s.chip.hartOff h = true → t.hart h = s.chip.hart h))) ∧
    (∀ src : BitVec 12, sget s.chip.tokens src.toNat 0 ≠ 0 →
      ((∀ e ∈ s.chip.held, e.1 ≠ src.toNat) → Yields (.tokenRefill src) s (fun t => t.held = s.chip.held ∧
        sget t.tokens src.toNat 0 = sget s.chip.tokens src.toNat 0 - 1)) ∧
      (∀ e, s.chip.held.find? (fun e => decide (e.1 = src.toNat)) = some e →
        (∀ m, e.2 = .thread m → m.hart.toNat = src.toNat → (s.chip.hart m.hart).dbgStep = false →
          Yields (.tokenRefill src) s (fun t => t.held = s.chip.held.filter (fun f => decide (f ≠ e)) ∧
            sget t.tokens src.toNat 0 = sget s.chip.tokens src.toNat 0 ∧
            (∃ f ∈ t.cageMsgs, f.kind = m.kind ∧ f.g = m.g ∧ ∃ p ∈ f.parts, p.2 = (m.hart, m.datum)) ∧
            ((s.chip.hart m.hart).wait = some .cage → (t.hart m.hart).wait = none))) ∧
        (∀ k, e.2 = .announce k →
          Yields (.tokenRefill src) s (fun t => t.held = s.chip.held.filter (fun f => decide (f ≠ e)) ∧
            sget t.tokens src.toNat 0 = sget s.chip.tokens src.toNat 0)))) ∧
    (∀ (rail : Bool) (why : BitVec 2), s.chip.railState rail = 1 → why = 1 ∨ why = 2 → s.chip.hdf.resetHeld = false →
      Yields (.railFailed rail why) s (fun t => t.railState rail = 2 ∧ (∀ f ∈ t.cageMsgs, f.rail ≠ some rail) ∧
        (s.chip.railState (!rail) = 1 → t.railState (!rail) = 1 ∧ t.mode = s.chip.mode)))

/-- R13, R674–R680, R684: a page write that may be made replaces the RW fields of the common registers, sets the bits
IRQ_FORCE names, or sets IPI pending at each hart CLU_IPI names; one made below the page's privilege changes nothing but
the page's error record. -/
def Obligations.PageWriteResults : Prop :=
  ∀ (s : State) (who : Requester) (o : BitVec 28) (v : Datum) (b : Blk) (i : Nat), o.toNat % 8 = 0 →
    pageAt o.toNat = some (b, i) →
    (s.chip.writable who o.toNat → o.toNat % 0x1000 = 0x030 → Yields (.registerWrite who o v) s (fun t => t.reg o.toNat = v)) ∧
    (s.chip.writable who o.toNat → o.toNat % 0x1000 = 0x018 → Yields (.registerWrite who o v) s (fun t =>
      t.rf o.toNat 63 62 = fld v 63 62 ∧ t.rf o.toNat 10 0 = fld v 10 0 ∧
      t.rf o.toNat 52 42 = if b = .pci then s.chip.rf o.toNat 52 42 else fld v 52 42)) ∧
    (s.chip.writable who o.toNat → o.toNat % 0x1000 = 0x038 → Yields (.irqForce who o v) s (fun t =>
      t.reg (o.toNat - 0x10) = s.chip.reg (o.toNat - 0x10) ||| (v &&& BitVec.ofNat 64 (2 ^ 63 + irqBits b i)))) ∧
    (∀ k : BitVec 6, s.chip.writable who (Blk.clu.base k.toNat + 0x148) → Yields (.cluIpi who k v) s (fun t =>
      ∀ j : Nat, j < 32 → (t.hart (BitVec.ofNat 11 (32 * k.toNat + j))).sprD 0x104 =
        (s.chip.hart (BitVec.ofNat 11 (32 * k.toNat + j))).sprD 0x104 ||| (if v.getLsbD j then 2 else 0))) ∧
    (∀ h : Hart, who = .thread h → (s.chip.hart h).priv < b.privs.2.toNat → b ≠ .clu → s.chip.present who = true →
      Yields (.registerWrite who o v) s (fun t =>
        t.rf (o.toNat - o.toNat % 0x1000 + 0x48) 15 0 = min (s.chip.rf (o.toNat - o.toNat % 0x1000 + 0x48) 15 0 + 1) 0xFFFF ∧
        t.rf (o.toNat - o.toNat % 0x1000 + 0x28) 63 63 = 1 ∧ t.harts = s.chip.harts ∧ t.mem = s.chip.mem ∧
        ∀ p, p ≠ o.toNat - o.toNat % 0x1000 + 0x28 → p ≠ o.toNat - o.toNat % 0x1000 + 0x40 →
          p ≠ o.toNat - o.toNat % 0x1000 + 0x48 → t.reg p = s.chip.reg p))

/-- R459, R461, R462, R469, R473, R483: the writes of a collector context's registers, and the completions that follow
them: enabling, the planes cleared, START and RELOCATE flip at once or arm, and RGN_CMD moves a region's state. -/
def Obligations.SluiceRegisterResults : Prop :=
  ∀ (s : State) (who : Requester) (k : BitVec 4) (v : Datum),
    let c := s.chip
    let K := k.toNat
    (c.writable who (ctxReg K 0) → bit v 63 = true → c.ctxEn K = false → c.enRefused K (fld v 11 0) = false →
      Yields (.contextEnable who k v) s (fun t => t.ctxEn K = true ∧ t.ctxEpoch K = 0 ∧ t.ctxGood K = 1 ∧ t.ctxPhase K = 0 ∧
        t.rf (stAt K) 40 40 = 0 ∧ (t.slc K).writing = true)) ∧
    (c.memUp = true → c.ctxEn K = true → c.ctxPhase K = 0 → c.rf (stAt K) 40 40 = 0 →
      Yields (.planesCleared k) s (fun t => t.rf (stAt K) 40 40 = 1 ∧ (t.slc K).writing = false)) ∧
    (c.writable who (ctxReg K 0x30) → bit v 63 = true → c.rf (stAt K) 42 41 = 0 →
      (fld v 1 0 = 0 → c.ctxEn K = true → c.ctxPhase K = 0 → c.rf (stAt K) 40 40 = 1 →
        (bit v 8 = false ∨ reached c.now (c.reg (ctxReg K 0x28)) = true →
          Yields (.start who k v) s (fun t => t.ctxPhase K = 1 ∧ t.ctxEpoch K = (c.ctxEpoch K + 1) % 2 ^ 16 ∧
            (t.ctxGood K).toNat = nextGood (c.ctxGood K).toNat ∧ t.rf (stAt K) 42 42 = 1 ∧
            (t.slc K).announce = BitVec.allOnes 64 ∧ (t.slc K).ack = 0)) ∧
        (bit v 8 = true → reached c.now (c.reg (ctxReg K 0x28)) = false →
          Yields (.start who k v) s (fun t => t.ctxPhase K = 0 ∧ t.rf (stAt K) 41 41 = 1 ∧ (t.slc K).armedOp = 0))) ∧
      (fld v 1 0 = 1 → c.ctxPhase K = 2 → c.rf (ctxReg K 0) 62 62 = 1 → bit v 8 = false →
        Yields (.relocate who k v) s (fun t => t.ctxPhase K = 3 ∧ t.ctxEpoch K = (c.ctxEpoch K + 1) % 2 ^ 16 ∧
          t.rf (stAt K) 42 42 = 1))) ∧
    (c.memUp = true → c.rf (stAt K) 41 41 = 1 → reached c.now (c.reg (ctxReg K 0x28)) = true →
      Yields (.armedFlip k) s (fun t => t.ctxPhase K = (if (c.slc K).armedOp = 0 then 1 else 3) ∧ t.rf (stAt K) 41 41 = 0)) ∧
    (c.writable who (ctxReg K 0x48) → bit v 63 = true → c.ctxEn K = true → (c.slc K).writing = false →
      (∀ i : Nat, fld v 62 60 = 0 → i < c.heapCount K → rgnState (c.rgn (c.pfirst K + i)) = 0 →
        (∀ j < i, rgnState (c.rgn (c.pfirst K + j)) ≠ 0) → c.region (c.regionAt (c.pfirst K + i)) = .dram →
        Yields (.alloc who k v) s (fun t => rgnState (t.rgn (c.pfirst K + i)) = 1 ∧
          rgnGen (t.rgn (c.pfirst K + i)) = fld v 59 58 ∧ rgnEpoch (t.rgn (c.pfirst K + i)) = c.ctxEpoch K ∧
          t.rf (ctxReg K 0x48) 50 34 = i ∧ t.rf (ctxReg K 0x48) 56 53 = 0)) ∧
      (fld v 16 0 < c.heapCount K → c.region (c.regionAt (c.pfirst K + fld v 16 0)) = .dram →
        (∀ e ∈ ([(Instr.retire, 1, 1, 2), (Instr.pin, 2, 2, 5), (Instr.unpin, 3, 5, 2), (Instr.release, 4, 4, 0)] :
            List ((Requester → BitVec 4 → Datum → Instr) × Nat × Nat × Nat)),
          fld v 62 60 = e.2.1 → rgnState (c.rgn (c.pfirst K + fld v 16 0)) = e.2.2.1 → (e.2.1 = 4 → c.ctxPhase K = 0) →
          Yields (e.1 who k v) s (fun t => rgnState (t.rgn (c.pfirst K + fld v 16 0)) = e.2.2.2 ∧
            rgnEpoch (t.rgn (c.pfirst K + fld v 16 0)) = c.ctxEpoch K ∧ t.rf (ctxReg K 0x48) 56 53 = 0)) ∧
        (fld v 62 60 = 5 → rgnState (c.rgn (c.pfirst K + fld v 16 0)) ∈ [1, 2, 5] →
          c.regionAt (c.pfirst K + fld v 16 0) + 8 ≤ c.cardBase K ∨
            c.cardBase K + c.heapCount K * 4096 ≤ c.regionAt (c.pfirst K + fld v 16 0) →
          Yields (.setgen who k v) s (fun t => rgnGen (t.rgn (c.pfirst K + fld v 16 0)) = fld v 59 58 ∧
            t.rf (ctxReg K 0x48) 56 53 = 0))))

/-- R443, R449, R464, R465, R467, R468, R470, R471: what the collector's engines and the clusters do: a thread adopts a
flip's view and owes a sweep, a sweep ends, clusters acknowledge, a stale word is recoloured, an object moves, tracing and
its termination rounds advance. -/
def Obligations.SluiceEngineResults : Prop :=
  ∀ (s : State) (k : BitVec 4) (h : Hart) (cl : BitVec 6) (e : Chip),
    let c := s.chip
    let K := k.toNat
    (c.flipDone K = false → c.holds (.announce K) = false → (c.slc K).announce.getLsbD cl.toNat = true → clusterOf h = cl → (c.hart h).run ≠ .off →
      (c.hart h).vmid.toNat = c.rf (ctxReg K 0) 11 0 →
      Yields (.flipAnnouncement k cl) s (fun t => (t.hart h).epoch = BitVec.ofNat 16 (c.ctxEpoch K) ∧
        (t.hart h).good = c.ctxGood K ∧ (t.hart h).sweep = true ∧ (t.slc K).announce.getLsbD cl.toNat = false)) ∧
    (c.memUp = true → (c.hart h).sweep = true → (c.hart h).micro = none → c.quietHart h = true →
      c.ctxOf (c.hart h).vmid = some K →
      ((c.drain h).ctxPhase K ≠ 1 → ((c.drain h).slc K).remapSweep = false →
        Yields (.threadSweep h) s (fun t => (t.hart h).sweep = false ∧ t.mem = (c.drain h).mem)) ∧
      ((c.drain h).ctxPhase K = 1 ∨ ((c.drain h).slc K).remapSweep = true → sweepRegs h K (c.drain h) = .ok () e →
        Yields (.threadSweep h) s (fun t => (t.hart h).sweep = false ∧ (t.hart h).regs = (e.hart h).regs ∧
          t.mem = e.mem))) ∧
    (c.flipDone K = false → c.holds (.announce K) = false → (c.slc K).ack.getLsbD cl.toNat = false → (c.slc K).announce.getLsbD cl.toNat = false →
      (∀ g : Hart, clusterOf g = cl → (c.hart g).sweep = false) →
      let a := (c.slc K).ack ||| ((1 : BitVec 64) <<< cl.toNat)
      (a ≠ BitVec.allOnes 64 → Yields (.flipAcknowledgement k cl) s (fun t => (t.slc K).ack = a ∧ t.flipDone K = false)) ∧
      (a = BitVec.allOnes 64 → c.home = [] → c.jobEn K = false → c.ctxPhase K = 1 ∨ (c.slc K).remapSweep = true →
        Yields (.flipAcknowledgement k cl) s (fun t => t.flipDone K = true))) ∧
    (∀ (w : Word) (a : BitVec 52), c.memUp = true → c.ctxEn K = true → a.toNat % 8 = 0 → c.region a.toNat = .dram →
      c.latent = [] → c.word a.toNat = w → isPoison w = false → c.wellFormed w = true → c.ptr w = true →
      w.colour ≠ c.ctxGood K → c.heapPtr K w = none → w.type ≠ 0x11 →
      Yields (.healRequest k w a) s (fun t => t.word a.toNat = ⟨((c.ctxGood K).zeroExtend 8 <<< 6) ||| (w.tag &&& 0x3F), w.dat⟩)) ∧
    (∀ (p : PA) (o : PA × BitVec 6) (q : Nat), c.memUp = true → c.ctxPhase K = 3 → c.flipDone K = true → c.moved p = false →
      (c.slc K).evac.contains (p.toNat / 2 ^ 21) = true → (c.slc K).objs.find? (fun o => decide (o.1 = p)) = some o →
      c.copyObject K ⟨o.2.zeroExtend 8, 0⟩ p.toNat = (e, some q) → p.toNat < 2 ^ 38 →
      (memWord e.mem p.toNat).tag = 0x07 ∧
      exec (.objectCopy k p) s = .next { s with chip := (e.drainRegions K).settle }) ∧
    (c.memUp = true → c.ctxEn K = true → c.ctxPhase K = 1 ∨ c.ctxPhase K = 4 → c.flipDone K = true →
      c.holds (.round K) = false → (∀ i : Nat, i < 8 → c.unitMay (engineSrc i) = true) →
      ((c.slc K).active = true ∨ (c.slc K).queue ≠ [] ∨ (c.slc K).ranges ≠ [] →
        Yields (.traceTerminationRound k) s (fun t => (t.slc K).active = false ∧ (t.slc K).quiet = 0 ∧
          t.ctxPhase K = c.ctxPhase K)) ∧
      ((c.slc K).active = false → (c.slc K).queue = [] → (c.slc K).ranges = [] →
        ((c.slc K).quiet = 0 → Yields (.traceTerminationRound k) s (fun t => (t.slc K).quiet = 1 ∧
          t.ctxPhase K = c.ctxPhase K)) ∧
        ((c.slc K).quiet = 1 → c.ctxPhase K = 4 → Yields (.traceTerminationRound k) s (fun t => t.ctxPhase K = 0)) ∧
        ((c.slc K).quiet = 1 → c.ctxPhase K = 1 → c.jobEn K = false →
          Yields (.traceTerminationRound k) s (fun t => t.ctxPhase K ≠ 1)))) ∧
    (∀ (t : Fin 8) (a n : Nat) (rest : List (Nat × Nat)), c.memUp = true → c.dom (10 * t.val + 9) = .on →
      c.ctxPhase K = 4 ∨ (c.ctxPhase K = 1 ∧ c.flipDone K = true) → (c.slc K).queue = [] →
      (c.slc K).ranges = (a, n) :: rest → c.region a = .dram → c.latent = [] → isPoison (c.word (a / 8 * 8)) = false →
      c.wellFormed (c.word (a / 8 * 8)) = true → c.ptr (c.word (a / 8 * 8)) = false →
      Yields (.sluiceTracing k t) s (fun d => (d.slc K).ranges = (if n ≤ 8 then rest else (a + 8, n - 8) :: rest) ∧
        (d.slc K).active = true ∧ d.mem = c.mem))

/-- R411, R413, R414, R417, R418: CLEAR and RETAG within DRAM start, and FAST_CLEAR_COMPLETE performs them on the lines its
controller holds, leaving poisoned words, a range without a line of the controller completing at once; patrol scrub goes to the
next slot, from the tail store to slot 0; SRAM scrub changes no word but one of an L3 entry it finds uncorrectable. -/
def Obligations.FastClearAndScrub : Prop :=
  ∀ (s : State) (who : Requester) (m : Fin 9) (v : Datum),
    let c := s.chip
    (c.writable who (fcCtlAt m.val) → bit v 63 = true → c.rf (fcCtlAt m.val) 0 0 = 0 →
      let start := c.rf (memPage m.val + 0x100) 37 6 * 64
      let len := c.rf (memPage m.val + 0x108) 38 6 * 64
      start + len ≤ c.dramEnd →
      ∀ e ∈ ([(Instr.clear, 0), (Instr.retag, 1)] : List ((Requester → Fin 9 → Datum → Instr) × Nat)),
        fld v 49 48 = e.2 → (e.2 = 1 → c.badRetag (BitVec.ofNat 8 (fld v 47 40)) = false) →
        ((∀ l : Nat, start / 64 ≤ l → 64 * l < start + len → ctlOf (64 * l) ≠ m.val) →
          Yields (e.1 who m v) s (fun t => t.rf (fcCtlAt m.val) 1 0 = 2 ∧ t.rf (fcCtlAt m.val) 7 4 = 0 ∧ t.mem = c.mem)) ∧
        ((∃ l : Nat, start / 64 ≤ l ∧ 64 * l < start + len ∧ ctlOf (64 * l) = m.val) → Yields (e.1 who m v) s (fun t => t.rf (fcCtlAt m.val) 0 0 = 1 ∧ t.rf (fcCtlAt m.val) 7 4 = 0 ∧
          t.fc.lookup m.val = some ⟨decide (e.2 = 1), BitVec.ofNat 8 (fld v 47 40), start, len⟩ ∧ t.mem = c.mem))) ∧
    (∀ (o : FcOp) (p : Nat), c.fc.lookup m.val = some o → c.latent = [] → o.start % 64 = 0 → o.len % 64 = 0 →
      p < 2 ^ 38 → p % 8 = 0 →
      Yields (.fastClearComplete m) s (fun t => t.rf (fcCtlAt m.val) 1 0 = 2 ∧ t.fc.lookup m.val = none ∧
        memWord t.mem p = if o.holds m.val (p / 64) = true ∧ (memWord c.mem p).tag ≠ 0xDF then
          (if o.retag then ⟨o.tag, (memWord c.mem p).dat⟩ else ⟨0, 0⟩) else memWord c.mem p)) ∧
    (c.ctlFailed.getLsbD m.val = false → c.dom (80 + m.val) = .on → c.rf (memPage m.val + 0x118) 16 16 = 1 → c.latent = [] →
      Yields (.patrolScrub m) s (fun t => t.mem = c.mem ∧
        (c.slots ≤ c.rf (memPage m.val + 0x120) 31 0 → t.rf (memPage m.val + 0x120) 31 0 = 0 ∧
          t.rf (memPage m.val + 0x120) 63 48 = (c.rf (memPage m.val + 0x120) 63 48 + 1) % 2 ^ 16) ∧
        (c.rf (memPage m.val + 0x120) 31 0 < c.slots →
          t.rf (memPage m.val + 0x120) 31 0 = c.rf (memPage m.val + 0x120) 31 0 + 1))) ∧
    ((c.latent = [] → Yields .sramScrub s (fun t => t.mem = c.mem)) ∧
      (∀ (e : Latent) (u pa : Nat) (i : Fin 3), c.latent = [e] → e.place = .cached .l3 u pa i →
        Yields .sramScrub s (fun t => t.latent = [] ∧ (e.n ≤ 1 → t.mem = c.mem) ∧
          (2 ≤ e.n → (memWord t.mem (pa / 8 * 8)).tag = 0xDF ∧ ∀ a, a ≠ tagBase + pa / 8 → cellGet t.mem a = cellGet c.mem a))))

/-- R11, R520, R526, R527, R529–R532, R534: a frame's bytes on the wire, each field most significant byte first, say what the frame
is; of received frames that pass R526's checks: DATA next in sequence is applied once and
acknowledged, a repeated one is acknowledged alone; ACK covers frames; SYN and SYN_ACK open a session, a new one of a known
peer failing what was outstanding; probes are answered and planes return; retransmission, loss of a peer, discards. -/
def Obligations.DriftFrameResults : Prop :=
  ∀ (s : State) (p : Fin 4) (f : Frame) (n : BitVec 18),
    let c := s.chip
    let q := c.peer f.src
    let cage := decide (f.cls = 0)
    let z := q.stream cage
    (Frame.fits f = true → frameOfWire (Frame.wire f) = f) ∧
    (c.memUp = true → c.frameOk p.val f 0 = true → c.sessionOk f = true → z.synced = true → q.waiting = [] → z.ahead = [] →
      (f.seq = z.expect → (∀ r ∈ f.recs, knownOp r.op.toNat = true) →
        Yields (.dataFrame p f) s (fun t => t.home = c.home ++ f.recs.map (fun r => ⟨f.src, cage, r, false, none⟩) ∧
          ((t.peer f.src).stream cage).expect = z.expect + 1)) ∧
      (64 < (f.seq - z.expect).toNat → Yields (.dataFrame p f) s (fun t => t.home = c.home ∧
        ((t.peer f.src).stream cage).expect = z.expect))) ∧
    (∀ u : Frame, c.frameOk p.val f 1 = true → c.sessionOk f = true → q.waiting = [] → z.unacked = [u] →
      (1 ≤ (f.ack - u.seq).toNat → (f.ack - u.seq).toNat < 2 ^ 31 →
        Yields (.ack p f) s (fun t => ((t.peer f.src).stream cage).unacked = [])) ∧
      (f.ack = u.seq → Yields (.ack p f) s (fun t => ((t.peer f.src).stream cage).unacked = [u]))) ∧
    (c.frameOk p.val f 2 = true → q.enabled = true → q.waiting = [] →
      (q.theirs = none → Yields (.syn p f) s (fun t => (t.peer f.src).theirs = some f.session ∧ (t.peer f.src).up = true ∧
        ((t.peer f.src).stream cage).expect = f.seq ∧ ((t.peer f.src).stream cage).synced = true)) ∧
      (∀ (x : BitVec 16) (o : RemoteOp), q.theirs = some x → x ≠ f.session → c.remote = [o] → o.node = f.src → c.home = [] →
        Yields (.syn p f) s (fun t => (t.peer f.src).theirs = some f.session ∧
          ∃ r ∈ t.home, r.rcd.rtag = o.rtag ∧ r.rcd.op = (o.op ||| 0x80) ∧ r.rcd.err = 0x0E))) ∧
    (c.frameOk p.val f 3 = true → q.enabled = true → q.session ≠ 0 → q.theirs = none → q.waiting = [] →
      Yields (.synAck p f) s (fun t => (t.peer f.src).theirs = some f.session ∧ (t.peer f.src).up = true)) ∧
    (c.frameOk p.val f 4 = true → c.sessionOk f = true → Yields (.probe p f) s (fun t =>
      ∃ g, Out.frame p.val (Frame.wire g) ∈ t.out ∧ g.typ = 5 ∧ g.dst = f.src ∧ g.plane.toNat = p.val)) ∧
    (c.frameOk p.val f 5 = true → c.sessionOk f = true → Yields (.probeAck p f) s (fun t =>
      (t.peer f.src).down = q.down &&& ~~~((1 : BitVec 4) <<< p.val))) ∧
    ((c.peer n).enabled = true → (c.peer n).down.getLsbD p.val = true → (c.peer n).planes.getLsbD p.val = true →
      c.portUp p.val = true → Yields (.planeProbe n p) s (fun t => ∃ g, Out.frame p.val (Frame.wire g) ∈ t.out ∧ g.typ = 4 ∧ g.dst = n)) ∧
    (∀ (gcage : Bool) (seq : BitVec 32) (u : Frame),
      ((c.peer n).stream gcage).unacked.find? (fun f => decide (f.seq = seq)) = some u →
      let tries := sget (c.peer n).gen.tries u.plane.toNat 0 + 1
      Yields (.retransmit n gcage seq) s (fun t => sget (t.peer n).gen.tries u.plane.toNat 0 = tries ∧
        (3 ≤ tries → (t.peer n).down.getLsbD u.plane.toNat = true))) ∧
    (n ≠ c.ownNode → (c.peer n).gen.unacked ≠ [] → Yields (.peerUnreachable n) s (fun t => (t.peer n).session = 0 ∧
      (t.peer n).up = false ∧ (t.peer n).gen.unacked = [] ∧ t.rf (dft4 + 0x28) 49 49 = 1)) ∧
    (c.dom (89 + p.val) = .on → Yields (.discardedFrame p) s (fun t =>
      t.rf (Blk.dft.base p.val + 0x48) 15 0 = min (c.rf (Blk.dft.base p.val + 0x48) 15 0 + 1) 0xFFFF ∧ t.home = c.home))

/-- R521, R525, R534, R543, R547: ports come up, drop and fail; PEER_CMD enables, disables and resets a peer and sets its
planes; clearing DRIFT_CFG.EN fails what is outstanding to other nodes; a role change voids the slots of other roles. -/
def Obligations.DriftControlResults : Prop :=
  ∀ (s : State) (who : Requester) (p : Fin 4) (v : Datum),
    let c := s.chip
    (∀ (speed : BitVec 2) (pre : Bool), c.dom (89 + p.val) = .on → c.portFailed.getLsbD p.val = false →
      c.rf (portAt p.val) 16 16 = 0 → speed = 1 ∨ speed = 2 →
      Yields (.portLinkUp p speed pre) s (fun t => t.rf (portAt p.val) 9 8 = 1 ∧ t.rf (portAt p.val) 16 16 = 1 ∧
        t.rf (portAt p.val) 21 20 = speed.toNat ∧
        t.rf (portAt p.val) 17 17 = if pre = true ∧ c.rf (dft4 + 0x100) 62 62 = 1 then 1 else 0)) ∧
    (c.rf (portAt p.val) 16 16 = 1 → Yields (.portLinkDown p) s (fun t => t.rf (portAt p.val) 9 8 = 0 ∧
      t.rf (portAt p.val) 16 16 = 0 ∧ t.rf (portAt p.val) 21 20 = 0)) ∧
    (c.dom (89 + p.val) = .on → c.portFailed = 0 → c.rf (portAt p.val) 16 16 = 0 → c.mode ≠ .degraded →
      c.hdf.resetHeld = false → Yields (.portFailed p) s (fun t => t.portFailed.getLsbD p.val = true ∧
        t.rf (portAt p.val) 9 8 = 2 ∧ t.rf (dft4 + 0x28) 50 50 = 1 ∧ t.mode = c.mode)) ∧
    (c.writable who (dft4 + 0x110) → bit v 63 = true →
      let n : BitVec 18 := BitVec.ofNat 18 (fld v 17 0)
      n ≠ c.ownNode → c.driftEn = true → c.reg (dft4 + 0x108) ≠ 0 →
      (fld v 62 60 = 0 → Yields (.peerEnable who v) s (fun t => (t.peer n).enabled = true ∧
        (t.peer n).planes = BitVec.ofNat 4 (fld v 59 56) ∧ t.rf (dft4 + 0x110) 54 51 = 0)) ∧
      (fld v 62 60 = 1 → Yields (.peerDisable who v) s (fun t => (t.peer n).enabled = false ∧ (t.peer n).session = 0 ∧
        t.rf (dft4 + 0x110) 54 51 = 0)) ∧
      (fld v 62 60 = 2 → Yields (.peerReset who v) s (fun t => (t.peer n).theirs = none ∧ (t.peer n).up = false ∧
        (t.peer n).enabled = (c.peer n).enabled ∧ t.rf (dft4 + 0x110) 54 51 = 0)) ∧
      (fld v 62 60 = 3 → Yields (.setplanes who v) s (fun t => (t.peer n).planes = BitVec.ofNat 4 (fld v 59 56) ∧
        (t.peer n).enabled = (c.peer n).enabled ∧ t.rf (dft4 + 0x110) 54 51 = 0))) ∧
    (∀ o : RemoteOp, c.writable who (dft4 + 0x100) → bit v 63 = false → c.driftEn = true → c.remote = [o] →
      o.node ≠ c.ownNode → c.home = [] → Yields (.driftDisable who v) s (fun t => t.driftEn = false ∧
        ∃ r ∈ t.home, r.rcd.rtag = o.rtag ∧ r.rcd.op = (o.op ||| 0x80) ∧ r.rcd.err = 1)) ∧
    (∀ i : Fin 48, c.writable who (qRingAt i.val) → fld v 63 48 ≠ c.rf (qRingAt i.val) 63 48 →
      let ptr := c.reg (qPtrAt i.val)
      let a := ringBase v + 128 * (fld ptr 31 0 % ringSlots v)
      Yields (.roleChange who (some i) v) s (fun t => t.reg (qRingAt i.val) = v) ∧
      (ringClosed v = false → ringHeld ptr = 1 → c.region a = .dram → fld (c.word a).dat 30 15 ≠ fld v 63 48 →
        fld (c.word a).dat 1 0 = 1 → Yields (.roleChange who (some i) v) s (fun t => fld (t.word a).dat 1 0 = 2))) ∧
    (∀ h : Hart, who = .thread h → c.present who = true → (c.hart h).priv = 3 →
      fld v 63 48 ≠ fld ((c.hart h).sprD 0x130) 63 48 →
      Yields (.roleChange who none v) s (fun t => (t.hart h).sprD 0x130 = setFld v 43 40 0))

/-- R474, R481, R523, R535, R538, R541–R546: a home answers a remote operation of a closed window with code 3 and any other
as it performs it; a message goes into its endpoint's next slot, or is refused; MARK records are dropped or held by epoch;
flip acknowledgements count and confirmations are noted; a TERM_QUERY is answered busy or idle, and the one that ends MARK (log 48)
begins RELOCATE_PREP. -/
def Obligations.HomeRecordResults : Prop :=
  ∀ (s : State) (idx : Nat) (r : HomeRec),
    let c := s.chip
    let w := r.rcd.win.toNat
    let op := r.rcd.op.toNat
    let answered := fun (t : Chip) (err : Nat) => ∃ x ∈ t.home, x.rcd.rtag = r.rcd.rtag ∧ x.rcd.op = (r.rcd.op ||| 0x80) ∧
      x.rcd.err = BitVec.ofNat 16 err
    c.homeAt idx = some r → c.mode ≠ .quiesced →
    (∀ e ∈ ([(Instr.gldRecord, 1, 1), (Instr.gstRecord, 2, 2), (Instr.gamoRecord, 3, 6)] : List ((Nat → Instr) × Nat × Nat)),
      e.2.1 ≤ op → op ≤ e.2.2 →
      (c.winOpen w = false → r.src = c.ownNode → Yields (e.1 idx) s (fun t => answered t 3 ∧ t.mem = c.mem)) ∧
      (∀ (d : Chip) (err : Nat) (l : List Word), c.homeDo r = (d, .reply err l) →
        exec (e.1 idx) s = .next { s with chip := ((d.dropHome idx).reply r err l).settle })) ∧
    (op = 7 → c.winOpen w = true → bit r.rcd.addr 45 = true →
      let i := fld r.rcd.addr 10 0
      let ring := c.reg (qRingAt i)
      let ptr := c.reg (qPtrAt i)
      let a := ringBase ring + 128 * (fld ptr 63 32 % ringSlots ring)
      i < 48 → ringClosed ring = false → fld ring 43 40 = w → r.rcd.words.all c.producible = true →
      (fld ring 63 48 = r.rcd.err.toNat → ringHeld ptr < ringSlots ring → c.region a = .dram →
        Yields (.sendRecord idx) s (fun t => t.reg (qPtrAt i) = tailUp ptr ∧ (t.word a).dat = (slotHead r 1).dat ∧
          (ringHeld ptr = 0 → t.rf (dft4 + 0x28) i i = 1))) ∧
      (fld ring 63 48 ≠ r.rcd.err.toNat → r.src = c.ownNode →
        Yields (.sendRecord idx) s (fun t => answered t 0x0B ∧ t.reg (qPtrAt i) = ptr ∧ t.mem = c.mem)) ∧
      (fld ring 63 48 = r.rcd.err.toNat → ringHeld ptr = ringSlots ring → r.src = c.ownNode →
        Yields (.sendRecord idx) s (fun t => answered t 0x0C ∧ t.reg (qPtrAt i) = ptr ∧ t.mem = c.mem))) ∧
    (op = 8 → (c.winOpen w = false → Yields (.markRecord idx) s (fun t => t.home = c.home.eraseIdx idx ∧ t.mem = c.mem)) ∧
      (∀ k : Nat, c.winOpen w = true → c.ctxOf (c.winVmid w) = some k →
        (epochPast r.rcd.err.toNat (c.ctxEpoch k) = true → Yields (.markRecord idx) s (fun t =>
          t.heldMarks = c.heldMarks ++ [r] ∧ t.home = c.home.eraseIdx idx)) ∧
        (epochPast r.rcd.err.toNat (c.ctxEpoch k) = false → r.rcd.err.toNat ≠ c.ctxEpoch k →
          Yields (.markRecord idx) s (fun t => t.home = c.home.eraseIdx idx ∧ t.mem = c.mem)))) ∧
    (∀ k : Nat, c.jobCtx r = some k →
      (op = 9 → c.rf (ctxReg k 0x40) 62 62 = 1 → r.rcd.err.toNat = c.ctxEpoch k → Yields (.flipAck idx) s (fun t =>
        t.rf (ctxReg k 0x40) 25 8 = (c.rf (ctxReg k 0x40) 25 8 + 1) % 2 ^ 18 ∧
        sget t.acked k [] = sget c.acked k [] ++ [r.src.toNat + 2 ^ 18 * c.ctxEpoch k])) ∧
      (op = 0x0A → r.rcd.err.toNat = c.ctxEpoch k → c.rf (stAt k) 38 38 = 0 → Yields (.flipConf idx) s (fun t =>
        t.rf (stAt k) 38 38 = 1 ∧ t.rf (sluBase + 0x28) (16 + k) (16 + k) = 1)) ∧
      (op = 0x0B → r.src = c.ownNode → c.unitMay flipSrc = true →
        (r.rcd.rtag ≠ 0 → c.ctxPhase k = 1 → (c.slc k).quiet < 2 ∨ (c.slc k).stirred = true →
          Yields (.termQuery idx) s (fun t => answered t 1 ∧ t.ctxPhase k = 1)) ∧
        (r.rcd.rtag ≠ 0 → c.ctxPhase k ≠ 1 ∨ (2 ≤ (c.slc k).quiet ∧ (c.slc k).stirred = false) → c.marksOut r.rcd.win = false →
          Yields (.termQuery idx) s (fun t => answered t 0 ∧ t.ctxPhase k = c.ctxPhase k)) ∧
        (r.rcd.rtag = 0 → c.ctxPhase k = 1 → c.rf (ctxReg k 0x40) 62 62 = 0 →
          Yields (.termQuery idx) s (fun t => answered t 0 ∧ t.ctxPhase k ≠ 1))))

/-- R170, R175, R427, R434, R437, R536, R545, R570, R571: a waiting tub load takes its word or the error it meets; a Stope unit
performs an operation and its result reaches rd or the tub; a walk goes on at the next cell's controller; a remote response
and a host-window completion complete what they answer. -/
def Obligations.DeliveryResults : Prop :=
  ∀ s : State,
    let c := s.chip
    (∀ (h : Hart) (slot : BitVec 5) (e : TubEntry) (p : PA) (w v : Word) (d d' : Chip),
      (c.hart h).tub[slot.toNat]? = some e → e.pa = some p → e.val = .waiting → c.memUp = true →
      let x : Xl := { pa := p.toNat, mono := e.mtype, w := e.leafW }
      readAt h x c = .ok w d →
      (isPoison w = true → Yields (.tubEntryArrival h slot) s (fun t => (t.hart h).tub[slot.toNat]? = some { e with val := .poison, bad := [] })) ∧
      (isPoison w = false → deliver h x e.addr 2 w d = .ok v d' → Yields (.tubEntryArrival h slot) s (fun t =>
        (t.hart h).tub[slot.toNat]? = some { e with val := .word v, bad := [] })) ∧
      (∀ y : Trap, isPoison w = false → deliver h x e.addr 2 w d = .error (.trap y) d' → Yields (.tubEntryArrival h slot) s (fun t =>
        (t.hart h).tub[slot.toNat]? = some { e with val := .invalid, bad := [] }))) ∧
    (∀ (idx : Nat) (q : StopeReq), c.stope[idx]? = some q → q.result = none →
      (q.forward = none → c.latent = [] → c.stopeBefore q q.words = false →
        (c.ctlFailed.getLsbD q.ctl = true → Yields (.stopeRequest idx) s (fun t =>
          t.stope[idx]? = some { q with result := some (opErr 0x05 q.va) } ∧ t.mem = c.mem)) ∧
        (c.ctlFailed.getLsbD q.ctl = false → q.op = 5 → q.cell.type = 0x04 → Yields (.stopeRequest idx) s (fun t =>
          t.stope[idx]? = some { q with result := some (.word ⟨0x04, 0⟩) } ∧ t.mem = c.mem)) ∧
        (∀ w : Word, c.ctlFailed.getLsbD q.ctl = false → q.op = 0 → q.xl.mono = none → q.xl.leaf1 = none → q.xl.leaf2 = none →
          q.xl.pa % 8 = 0 → c.region q.xl.pa = .dram → c.word q.xl.pa = w → w.type = 0x00 → isPoison w = false →
          c.ptr w = false → c.producible { w with dat := w.dat + q.arg.dat } = true →
          Yields (.stopeRequest idx) s (fun t => t.word q.xl.pa = { w with dat := w.dat + q.arg.dat } ∧
            t.stope[idx]? = some { q with result := some (.word w) })) ∧
        (∀ (d : Chip) (r : OpResult), c.ctlFailed.getLsbD q.ctl = false → q.op ≠ 5 →
          c.atomic q.op.toNat q.view q.walker q.regime q.xl q.va q.expect q.arg = (d, some r) →
          exec (.stopeRequest idx) s = .next { s with chip := (d.setStope q { q with result := some r }).settle })) ∧
      (∀ m : Nat, q.forward = some m → c.stopeBusy m < 128 →
        let r : StopeReq := { q with ctl := m, forward := none, settled := true }
        (c.ctlFailed.getLsbD m = true → Yields (.walkForward idx) s (fun t =>
          t.stope[idx]? = some { r with result := some (opErr 0x05 q.cell.dat) })) ∧
        (c.ctlFailed.getLsbD m = false →
          exec (.walkForward idx) s = .next { s with chip := ((c.setStope q r).walkOn r).settle }))) ∧
    (∀ (idx : Nat) (q : StopeReq) (w : Word), c.stope[idx]? = some q →
      (∀ p : Nat, q.result = some (.word w) → q.dest = .reg p → p < 416 → (c.hart q.hart).wait = some .stope →
        (c.hart q.hart).dbgStep = false → isPoison w = false → c.wellFormed w = true →
        Yields (.stopeResult idx) s (fun t => (t.hart q.hart).preg p = w ∧ (t.hart q.hart).wait = none ∧
          t.stope = c.stope.eraseIdx idx)) ∧
      (∀ id : Nat, q.result = some (.word w) → q.dest = .tub id → isPoison w = false → Yields (.stopeResult idx) s (fun t =>
        (t.hart q.hart).tub = (c.hart q.hart).tub.map (fun e =>
          if e.id = id && decide (e.val = .waiting) then { e with val := .word w, bad := [] } else e))) ∧
      (∀ (k : BitVec 6) (a : Datum) (x : BitVec 16) (l m : BitVec 2) (i : Option Datum), q.result = some (.err k a x l m i) →
        q.dest = .none → (c.hart q.hart).run ≠ .off → (c.hart q.hart).dse = none → Yields (.stopeResult idx) s (fun t =>
          (t.hart q.hart).dse = some ⟨a, BitVec.ofNat 16 (2 ^ 5 + q.regime.priv.toNat * 2 ^ 8)⟩))) ∧
    (∀ (idx : Nat) (r : HomeRec) (o : RemoteOp), c.homeAt idx = some r → r.rcd.op ≠ 0x8B → 0x80 ≤ r.rcd.op.toNat →
      c.remote.find? (fun p => decide (p.node = r.src) && decide (p.rtag = r.rcd.rtag) && decide (p.op ||| 0x80 = r.rcd.op)) = some o →
      (∀ (p : Nat) (w : Word) (l : List Word), o.op = 0x01 → o.dest = .reg p → p < 416 → (c.hart o.hart).wait = some .remote →
        (c.hart o.hart).dbgStep = false → r.rcd.err = 0 → r.rcd.words = w :: l → isPoison w = false → c.wellFormed w = true →
        Yields (.remoteResponse idx) s (fun t => (t.hart o.hart).preg p = w ∧ (t.hart o.hart).wait = none ∧
          t.home = c.home.eraseIdx idx ∧ o ∉ t.remote)) ∧
      (o.op = 0x02 → r.rcd.err ≠ 0 → (c.hart o.hart).run ≠ .off → (c.hart o.hart).dse = none →
        Yields (.remoteResponse idx) s (fun t => o ∉ t.remote ∧
          (t.hart o.hart).dse = some ⟨o.addr, BitVec.ofNat 16 (2 * 2 ^ 5 + o.priv.toNat * 2 ^ 8)⟩)) ∧
      (o.op = 0x07 → r.rcd.err = 0 → Yields (.remoteResponse idx) s (fun t => o ∉ t.remote ∧ t.sends = c.sends ++ [o]))) ∧
    (∀ (idx : Nat) (l : HostLoad) (status : BitVec 2) (v : Datum), c.pcie.loads[idx]? = some l → l.rd ≠ 48 →
      (c.hart l.hart).wait = some .hostLoad → (c.hart l.hart).micro = none → (c.hart l.hart).dbgStep = false →
      let lands := fun (t : Chip) (d : Datum) => (t.hart l.hart).wait = none ∧ l ∉ t.pcie.loads ∧
        (t.hart l.hart).landings = ((c.hart l.hart).landings ++ [Landing.mk l.preg (.raw d) 3]).map (fun (k : Landing) =>
          { k with slots := k.slots - 1 })
      let counted := fun (t : Chip) => t.rf (pci + 0x48) 15 0 = min (c.rf (pci + 0x48) 15 0 + 1) 0xFFFF
      (c.linkOk = true → status = 0 → Yields (.hostWindowCompletion idx status v) s (fun t => lands t v)) ∧
      (c.linkOk = true → status = 1 ∨ status = 2 → Yields (.hostWindowCompletion idx status v) s (fun t =>
        lands t (BitVec.allOnes 64) ∧ counted t)) ∧
      Yields (.completionTimeout idx) s (fun t => lands t (BitVec.allOnes 64) ∧ counted t))

/-- R272, R276, R234, R364, R270, R274, R557: at a boundary the acceptable event is entered, at a commit point after the routine
is abandoned; an accepted buffer entry writes its bytes; a store that fails changes no datum byte and is reported; an armed
timer compare that the counter has reached becomes pending. -/
def Obligations.BoundaryEvents : Prop :=
  ∀ (s : State) (h : Hart),
    let c := s.chip
    let x := c.hart h
    (∀ e : Event, c.hartDom h = .on → c.coreOk h = true → c.acceptable h = some e →
      (x.atBoundary = true → exec (.asyncEventAccept h none) s = .next { s with
        chip := (((c.modHart h (fun y => { y with run := .run })).accept h e).stepHalt h).settle }) ∧
      (x.atCommitPoint = true → exec (.asyncEventAccept h none) s = .next { s with
        chip := ((c.abandon h).acceptNext h).settle })) ∧
    (c.hartDom h = .on → c.coreOk h = true → x.run = .wfi → x.wait = none → x.micro = none → x.dbgStep = false → c.acceptable h = none →
      c.intPend h ≠ 0 → Yields (.asyncEventAccept h none) s (fun t => (t.hart h).run = .run ∧ (t.hart h).pc = x.pc)) ∧
    (∀ (core : BitVec 9) (slot : BitVec 5) (e : SbEntry), c.latent = [] →
      (c.sbOldest core slot.toNat = some e → (∀ w ∈ e.writes, w.1 < 2 ^ 53) → Yields (.storeAccepted core slot) s (fun t =>
        t.mem = cellsSet c.mem e.writes ∧ t.sb = c.sb.filter (fun f => decide (f ≠ e)))) ∧
      (c.sb.find? (fun f => decide (f.core = core) && decide (f.slot = slot.toNat)) = some e → (c.hart e.hart).dse = none →
        Yields (.storeFailure core slot) s (fun t => t.sb = c.sb.filter (fun f => decide (f ≠ e)) ∧
          (∀ k, k < tagBase → cellGet t.mem k = cellGet c.mem k) ∧
          (t.hart e.hart).dse = some ⟨e.va, BitVec.ofNat 16 (slot.toNat + e.priv.toNat * 2 ^ 8)⟩))) ∧
    (x.timerArmed = true → (c.now - x.sprD 0x133).toNat < 2 ^ 63 →
      Yields (.timerCmpExpiry h) s (fun t => (t.hart h).timerArmed = false ∧ (t.hart h).sprD 0x104 = x.sprD 0x104 ||| 4)) ∧
    ((x.timerArmed = false ∨ ¬ (c.now - x.sprD 0x133).toNat < 2 ^ 63) →
      Yields (.timerCmpExpiry h) s (fun t => t.harts = c.harts))

/-- R280, R305, R307, R309, R103: a trap with no escalation in progress stores its frame below the handler's stack and enters at
TRAP_BASE + 32 times the cause with PSTATE cleared to the handler's privilege and the window advanced; in Tram mode it
escalates, at ESC_BASE + 32 times the vector, by ESC_SP; with an escalation in progress it halts the thread. -/
def Obligations.TrapEntry : Prop :=
  ∀ (c : Chip) (h : Hart) (t : Trap) (pc0 pc : Datum) (code : BitVec 32),
    let c0 := c.modHart h landDue
    let x := c0.hart h
    (x.active ≠ 0 → ((c.takeTrap h t pc0 pc code).hart h).run = .halted ∧ ((c.takeTrap h t pc0 pc code).hart h).pc = x.pc) ∧
    (x.active = 0 → x.tramMode = true → c.takeTrap h t pc0 pc code = c0.escalate h 2 t.cause t false pc0 code) ∧
    (∀ c1 d : Chip, x.active = 0 → x.tramMode = false → t.cause ∉ [0x1C, 0x1D, 0x1E] → x.resident ≠ 15 →
      (do lazyWindow h; lazyLoad h 9 : M Unit) c0 = .ok () c1 →
      let y := c1.hart h
      let hp := handlerPriv t t.cause y.priv
      let base := if hp = y.priv then y.sp else if hp = 1 then y.sprD 0x00A else y.sprD 0x102
      let f := (base - 128) &&& ~~~(63 : Datum)
      localForm base = true → (if hp = 1 then y.sprD 0x004 else y.sprD 0x103).toNat ≤ f.toNat →
      pushFrame h hp f (frameWords y pc t t.cause false hp none code) c1 = .ok () d →
      let z := (c.takeTrap h t pc0 pc code).hart h
      z.pstate = BitVec.ofNat 64 hp ∧ z.sp = f ∧ z.landings = [] ∧ z.resv = none ∧ z.micro = none ∧ z.run = .run ∧
      z.pc = pcForm ((((d.hart h).sprD (if hp = 1 then 0x008 else 0x101)) &&& ~~~(2047 : Datum)) + BitVec.ofNat 64 (32 * t.cause)) ∧
      z.cwp = ((d.hart h).cwp + 1) % 16 ∧ z.preg (400 + z.cwp) = ⟨0x12, pc⟩ ∧
      (∀ a, t.ipa = some a → z.sprD 0x113 = a)) ∧
    (∀ (v cause : Nat) (async : Bool) (d : Chip),
      let y := (c.loadCond h).hart h
      let f := (y.sprD 0x083 - 128) &&& ~~~(63 : Datum)
      (localForm (y.sprD 0x083) = true →
        pushFrame h 3 f (frameWords y pc t cause async 3 (some v) code) (c.loadCond h) = .ok () d →
        let z := (c.escalate h v cause t async pc code).hart h
        z.pstate = 11 ∧ z.sprD 0x083 = f ∧ z.sprD 0x100 = (d.hart h).sprD 0x100 ||| BitVec.ofNat 64 (2 ^ v) ∧
        z.pc = pcForm ((((d.hart h).sprD 0x082) &&& ~~~(255 : Datum)) + BitVec.ofNat 64 (32 * v)) ∧
        z.cwp = (d.hart h).cwp ∧ z.run = .run ∧ z.landings = []) ∧
      (localForm (y.sprD 0x083) = false → ((c.escalate h v cause t async pc code).hart h).run = .halted))

/-- R227, R233, R237, R238, R239, R243, R245, R251: the word at UPC of a routine executes and its SEQ says where it goes on: the next
word, NEXT, by condition, by type, into and out of a subroutine, a commit point; END delivers SRC's word to rd, FAIL, REJECT and
a core WAIT trap; a unit's WAIT waits as R237 and R239 allow, and ends at its expiry word where its limit is reached. -/
def Obligations.MicroResults : Prop :=
  (∀ (s : State) (h : Hart) (m n : Micro) (cond : Bool) (td : Word) (d : Chip),
    let c := s.chip
    let x := c.hart h
    let ua := m.upc.toNat
    let w := c.blendWord (clusterOf h).toNat ua
    let back := fun (e : Chip) => e.modHart h (fun y => if y.tp = m.tp0 then y else y.putPreg 417 (.raw m.tp0))
    let goes := fun (i : Instr) (to_ : Nat) (st : List (BitVec 14)) => 0x3800 ≤ to_ → to_ < 0x4000 → Yields i s (fun t =>
      (t.hart h).micro = some { n with upc := BitVec.ofNat 14 to_, stack := st })
    let traps := fun (i : Instr) (e : Chip) (y : Trap) => exec i s = .next { s with
      chip := (((back e).takeTrap h y x.pc x.pc m.insn).stepEnd h).settle }
    x.micro = some m → c.microReady h m = true → c.latent = [] → m.phase = .fetch → m.count + 1 < 64 →
    (mwSeq w = 0 → traps (.seqReject h) c { cause := if m.cls = 16 then 0x01 else 0x0F }) ∧
    (wordWork h ua w (c.modHart h (fun y => { y with
        micro := y.micro.map (fun k => { k with atCommit := false, count := k.count + 1 }) })) = .ok (cond, td, none) d →
      (d.hart h).micro = some n →
      (mwSeq w = 1 → goes (.seqNext h) (ua + 1) n.stack) ∧
      (mwSeq w = 2 → goes (.seqJump h) (mwNext w) n.stack) ∧
      (mwSeq w = 3 → goes (.seqCjump h) (if cond then mwNext w else ua + 1) n.stack) ∧
      (mwSeq w = 4 → ¬ (0x2FF0 ≤ mwNext w ∧ mwNext w ≤ 0x2FF3) → n.stack.length < 4 →
        goes (.seqCall h) (mwNext w) (BitVec.ofNat 14 (ua + 1) :: n.stack)) ∧
      (∀ (r : BitVec 14) (rest : List (BitVec 14)), mwSeq w = 5 → n.stack = r :: rest → goes (.seqReturn h) r.toNat rest) ∧
      (mwSeq w = 6 → goes (.seqTdisp h) (mwNext w + (if mwTdmode w = 1 then td.type.toNat
        else b2n (d.ptr td) + 2 * b2n (decide (0x20 ≤ td.type.toNat)))) n.stack) ∧
      (mwSeq w = 7 → 0x3800 ≤ ua + 1 → ua + 1 < 0x4000 → Yields (.seqCommit h) s (fun t =>
        (t.hart h).micro = some { n with upc := BitVec.ofNat 14 (ua + 1), atCommit := true, count := 0 })) ∧
      (∀ (v : Word) (e f g : Chip) (k : Micro) (b : Datum), mwSeq w = 8 → selRead h (mw w 56 52) (mwImm w) d = .ok v e →
        (e.hart h).micro = some k → k.cls ≤ 5 → (e.hart h).nest = [] → e.producible v = true →
        writeSpec h k.aops.rd v e = .ok () f → sprM h 0x018 f = .ok b g → bit b 63 = false →
        exec (.seqEnd h) s = .next { s with chip := (((g.modHart h (fun y => { y with micro := none })).modHart h
          (fun y => { y with insn := m.insn })).retire h .seq x.priv x.repa).settle }) ∧
      (mwSeq w = 9 → mwImm w % 8 < 3 → traps (.seqFail h) d { cause := 0x0F + mwImm w % 8 }) ∧
      (mwSeq w = 9 → mwImm w % 8 = 3 → traps (.seqFail h) d { cause := 0x1B, detail := mwImm w / 2 ^ 16 % 2 ^ 14 }) ∧
      (∀ k : UnitWait, mwSeq w = 0xA → traps (.seqWait (.core h) k) d (blendFault ua 8)))) ∧
  (∀ (s : State) (u : Sequencer) (k : UnitWait), (∀ h, u ≠ .core h) →
    (s.chip.latent = [] → sequencerOk u = true → waitAllowed k u = true → Yields (.seqWait u k) s (fun t =>
      t.unitWaits = s.chip.unitWaits.filter (fun e => decide (e.1 ≠ u)) ++ [(u, k)])) ∧
    (s.chip.latent = [] → k.cage = true → k.cond ≠ .cageAck → k.cond ≠ .timeCompare → k.cond ≠ .credit 0 →
      Yields (.seqWait u k) s (fun t => t.unitWaits = s.chip.unitWaits)) ∧
    (s.chip.unitWaits.find? (fun e => decide (e.1 = u)) = some (u, k) →
      (reached s.chip.now k.limit = true → Yields (.unitWaitExpiry u) s (fun t =>
        t.unitWaits = s.chip.unitWaits.filter (fun e => decide (e.1 ≠ u)) ∧ (u, k.expiry) ∈ t.unitWords)) ∧
      (reached s.chip.now k.limit = false → Yields (.unitWaitExpiry u) s (fun t => t.unitWaits = s.chip.unitWaits))))

/-- R100, R101, R103: a Tram move reads its source port and writes its destination port, an immediate writes its sign-extended
constant; a port without the direction, or a move with its low bits set, traps RESERVED_OP, which in Tram mode escalates. -/
def Obligations.TramResults : Prop :=
  ∀ (s : State) (h : Hart) (dst p : BitVec 12) (imm : BitVec 18) (w : Word) (f : Flow) (c c1 c2 : Chip),
    (Starts s h (insnTramMove h dst p 0) c → portReads p.toNat = true → portWrites dst.toNat = true →
      portRead h p.toNat c = .ok w c1 → isPoison w = false ∨ portUses dst.toNat = false → portWrite h dst.toNat w c1 = .ok f c2 →
      exec (.tramMove h dst p 0) s = .next (Ended s h (insnTramMove h dst p 0) f c2)) ∧
    (Starts s h (insnTramImmediate h dst imm) c → portWrites dst.toNat = true →
      portWrite h dst.toNat (.raw (imm.signExtend 64)) c = .ok f c2 →
      exec (.tramImmediate h dst imm) s = .next (Ended s h (insnTramImmediate h dst imm) f c2)) ∧
    (∀ low : BitVec 6, Starts s h (insnTramMove h dst p low) c →
      low ≠ 0 ∨ portReads p.toNat = false ∨ portWrites dst.toNat = false →
      exec (.tramMove h dst p low) s = .next (Trapped s h (insnTramMove h dst p low) { cause := 0x01 } c)) ∧
    (Starts s h (insnTramImmediate h dst imm) c → portWrites dst.toNat = false →
      exec (.tramImmediate h dst imm) s = .next (Trapped s h (insnTramImmediate h dst imm) { cause := 0x01 } c)) ∧
    (∀ (i : Nat) (y : HartSt), y = c.hart h →
      (portRead h 0x101 c = readPreg h y.tram.pregIdx c) ∧
      (i ≤ 415 → portWrite h 0x100 (.raw (BitVec.ofNat 64 i)) c = .ok .seq (c.modHart h (fun z => { z with tram := { z.tram with pregIdx := i } }))) ∧
      (portWrite h 0x160 (.raw (BitVec.ofNat 64 i)) c = .ok (.jump (BitVec.ofNat 64 i)) c) ∧
      (portWrite h 0xFFF w c = .ok .seq c))

/-- R548, R552, R553, R555, R556, R638, R639: the time clock advances the counter; a PTP Sync and a PPS edge give an offset that
the servo corrects and by which LOCKED is decided; holdover clears LOCKED; the ageing term makes the
oscillator's calibrated offset the mean correction, a free value; a sensor is re-zeroed. -/
def Obligations.TimeResults : Prop :=
  ∀ s : State,
    let c := s.chip
    let st := tim + 0x100
    let ctl := tim + 0x108
    (∀ (n : Nat) (faults : List Latent), c.adjNow = 0 → c.time.residue = 0 → unitsOf c.time.counter + n * 2 ^ 16 < 2 ^ 48 * 10 ^ 9 * 2 ^ 16 →
      Yields (.timeCounterAdvance ⟨n, faults⟩) s (fun t => unitsOf t.time.counter = unitsOf c.time.counter + n * 2 ^ 16)) ∧
    (∀ (p : Fin 4) (m : PtpMsg), c.rf ctl 63 63 = 1 → c.tsrc = 0 → c.rf ctl 62 56 = m.domain.toNat → c.ptpPort = some p.val →
      m.better = true → Yields (.ptpMessage p m) s (fun t => t.rf st 11 10 = p.val ∧
        (m.kind = 2 → t.time.t2 = nsOf c.time.counter ∧ t.time.counter = c.time.counter) ∧
        (m.kind = 4 → t.time.delay = some (((c.time.t2 - c.time.t1) + (stampNs m.stamp - c.time.t3)) / 2)) ∧
        (m.kind = 1 ∨ m.kind = 3 → t.time.t1 = stampNs m.stamp ∧ ∃ b, .ptpDelayReq p.val b ∈ t.out ∧
          b.take 6 = [0x01, 0x1B, 0x19, 0x00, 0x00, 0x00] ∧ b.drop 16 = [0x88, 0xF7] ∧
          wireNat ((b.drop 6).take 6) = macOf c.ownNode p.val) ∧
        (∀ d : Int, m.kind = 1 → c.time.delay = some d → c.everLocked = true →
          t.rf st 63 32 = sat32 (nsOf c.time.counter - stampNs m.stamp - d - c.asym) ∧ t.rf st 1 1 = 0 ∧
          t.time.counter = c.time.counter ∧
          (1000 < (nsOf c.time.counter - stampNs m.stamp - d - c.asym).natAbs → t.rf st 0 0 = 0)))) ∧
    (∀ rising : Bool, rising ≠ bit (c.reg ctl) 48 → c.tsrc ≠ 1 → Yields (.ppsInEdge rising) s (fun t =>
      t.time.lastPps = some c.time.counter ∧ t.time.counter = c.time.counter ∧ (c.time.lastPps = none → t.rf st 2 2 = 0))) ∧
    (∀ rising : Bool, rising ≠ bit (c.reg ctl) 48 → c.tsrc = 1 → c.everLocked = true → Yields (.ppsInEdge rising) s (fun t =>
      let ns : Int := (c.now.toNat % 2 ^ 32 : Nat)
      t.rf st 63 32 = sat32 (if ns > 500000000 then ns - 1000000000 else ns) ∧ t.rf st 1 1 = 0 ∧
      t.time.set = none ∧ t.time.counter = c.time.counter)) ∧
    (∀ rising : Bool, rising = bit (c.reg ctl) 48 → Yields (.ppsInEdge rising) s (fun t => t.time = c.time ∧ t.pages = c.pages)) ∧
    (c.tsrc = 0 → c.holdover = false → Yields .holdoverEntry s (fun t => t.rf st 1 1 = 1 ∧ t.rf st 0 0 = 0 ∧
      t.time.counter = c.time.counter)) ∧
    (c.locked = true → Yields .oscillatorAgeing s (fun t => t.oscPpb = (Config.freeDatum c.fresh).toInt ∧
      t.time.counter = c.time.counter)) ∧
    (c.locked = false → Yields .oscillatorAgeing s (fun t => t.time = c.time)) ∧
    (∀ (k : BitVec 7) (r : BitVec 16), c.mode ≠ .off → k.toNat < 89 → Yields (.thermalRezero k r) s (fun t => t.temp k.toNat = r))

/-- R560, R561, R563–R565, R568, R571, R577, R581: host writes make the words they touch RAW and keep poisoned ones, host reads
return bytes and mark poison, the tag aperture answers its one requester, BAR0 accesses reach registers; the link, its resets
and the MSI-X table. -/
def Obligations.HostRequests : Prop :=
  ∀ (s : State) (q : HostReq),
    let c := s.chip
    let p := q.off.toNat
    let o := p - 2 ^ 38
    let v := c.reg (pci + 0x100)
    (c.takes q = true → c.latent = [] → p < 2 ^ 38 →
      (∀ l : List Byte, c.dramEnd < p + l.length → Yields (.hostDatumWrite q l) s (fun t => .hostUR q.reqid ∈ t.out ∧ t.mem = c.mem)) ∧
      (∀ l : List Byte, p + l.length ≤ c.dramEnd → p % 8 = 0 → l.length = 8 →
        (isPoison (c.word p) = false → Yields (.hostDatumWrite q l) s (fun t =>
          memWord t.mem p = ⟨0, BitVec.ofNat 64 (ofBytes l)⟩ ∧
          ∀ a, a < 2 ^ 38 → a % 8 = 0 → a ≠ p → memWord t.mem a = memWord c.mem a)) ∧
        (isPoison (c.word p) = true → Yields (.hostDatumWrite q l) s (fun t => t.mem = c.mem))) ∧
      (∀ n : Nat, c.dramEnd < p + n → Yields (.hostDatumRead q n) s (fun t => .hostUR q.reqid ∈ t.out)) ∧
      (∀ n : Nat, p + n ≤ c.dramEnd → (∀ i, i < n → isPoison (c.word ((p + i) / 8 * 8)) = false) →
        Yields (.hostDatumRead q n) s (fun t => t.mem = c.mem ∧ .hostRead q.reqid ((List.range n).map (fun i =>
          (c.word ((p + i) / 8 * 8)).dat.extractLsb' (8 * ((p + i) % 8)) 8)) false ∈ t.out)) ∧
      (p + 8 ≤ c.dramEnd → p % 8 = 0 → isPoison (c.word p) = true → Yields (.hostDatumRead q 8) s (fun t =>
        .hostRead q.reqid (List.replicate 8 0xFF) true ∈ t.out ∧
        t.rf (pci + 0x48) 15 0 = min (c.rf (pci + 0x48) 15 0 + 1) 0xFFFF))) ∧
    (c.takes q = true → c.latent = [] → 2 ^ 38 ≤ p →
      (∀ w : Option (List Byte), fld v 63 63 = 0 ∨ fld v 15 0 ≠ q.reqid.toNat →
        Yields (.hostTagApertureAccess q w 8) s (fun t => .hostUR q.reqid ∈ t.out ∧ t.mem = c.mem)) ∧
      (fld v 63 62 = 2 → fld v 15 0 = q.reqid.toNat →
        (∀ n : Nat, o + n ≤ c.dramEnd / 8 → Yields (.hostTagApertureAccess q none n) s (fun t => t.mem = c.mem ∧
          .hostRead q.reqid ((List.range n).map (fun i => (c.word (8 * (o + i))).tag)) false ∈ t.out)) ∧
        (∀ (b : Byte) (n : Nat), o + 1 ≤ c.dramEnd / 8 →
          (b ≠ 0xDF → isPoison (c.word (8 * o)) = false → Yields (.hostTagApertureAccess q (some [b]) n) s (fun t =>
            t.word (8 * o) = ⟨b, (c.word (8 * o)).dat⟩)) ∧
          (b = 0xDF → Yields (.hostTagApertureAccess q (some [b]) n) s (fun t => t.word (8 * o) = c.word (8 * o) ∧
            t.rf (memPage (ctlOf (8 * o)) + 0x48) 15 0 = min (c.rf (memPage (ctlOf (8 * o)) + 0x48) 15 0 + 1) 0xFFFF))))) ∧
    (c.takes q = true → p < 2 ^ 28 →
      (∀ d : Datum, p % 8 = 0 → exec (.hostRegisterAccess q 8 (some d)) s = .next { s with chip := (c.pageWrite .host p d).settle }) ∧
      (∀ (n : Nat) (b : Blk) (i : Nat) (fs : List Fld), n = 4 ∨ n = 8 → p % n = 0 →
        c.reach .host (p / 8 * 8) false = .ok (b, i, fs) → Yields (.hostRegisterAccess q n none) s (fun t =>
          .hostRead q.reqid (((bytesOf 8 (c.regValue b i (p / 8 * 8 % 0x1000) (p / 8 * 8)).toNat).drop (p % 8)).take n) false
            ∈ t.out)) ∧
      (∀ (n : Nat) (d : Datum), n ≠ 8 ∨ p % 8 ≠ 0 → Yields (.hostRegisterAccess q n (some d)) s (fun t =>
        t.rf (pci + 0x48) 15 0 = min (c.rf (pci + 0x48) 15 0 + 1) 0xFFFF ∧ t.rf (pci + 0x28) 63 63 = 1))) ∧
    (c.pcie.linkUp = true → c.pcie.perst = false → c.dom 93 = .on → Yields .configurationRequest s (fun t =>
      (if c.pcie.released then .configOk else .configRetry) ∈ t.out)) ∧
    (c.mode ≠ .off → c.mode ≠ .standby → c.dom 93 = .on → Yields .hostLinkUp s (fun t =>
      t.pcie.linkUp = true ∧ t.pcie.perst = false)) ∧
    (∀ k : BitVec 2, k ≠ 3 → c.mode ≠ .off → c.mode ≠ .standby →
      (k = 1 → Yields (.pciReset k) s (fun t => t.pcie.loads = c.pcie.loads ∧ t.pcie.linkUp = c.pcie.linkUp)) ∧
      (k ≠ 1 → Yields (.pciReset k) s (fun t => t.pcie.loads = [])) ∧
      (k = 1 ∨ c.pcie.loads = [] → Yields (.pciReset k) s (fun t => t.pcie.msix = [] ∧ t.pcie.reads = [] ∧ t.pcie.ide = [] ∧
        t.pcie.doeBusy = false ∧ (∀ i, i < 64 → t.rf (dmaCtlAt i) 63 63 = 0) ∧
        (k ≠ 1 → t.pcie.linkUp = false) ∧ (k = 0 → t.pcie.perst = true)))) ∧
    (∀ (i : BitVec 11) (lo hi : Datum), c.linkOk = true → Yields (.msixTableWrite i lo hi) s (fun t =>
      sget t.pcie.msix i.toNat (0, 0x100000000) = (lo, hi) ∧
      (i.toNat ∈ c.pcie.pba → bit hi 32 = false → .msix i.toNat ∈ t.out))) ∧
    (∀ n : BitVec 8, Yields (.ideFailure n) s (fun t => (∀ i ∈ t.pcie.ide, i.id = n → i.secure = false) ∧
      t.pcie.ide.map (fun i => i.id) = c.pcie.ide.map (fun i => i.id)))

/-- R572–R576, R571: doorbells and enables; the next descriptor of a queue is performed by its operation, its error halts the
queue and keeps HEAD; host completions bring a descriptor's data, fail it, or time out. -/
def Obligations.DmaResults : Prop :=
  ∀ (s : State) (q : BitVec 6),
    let c := s.chip
    let ctl := dmaCtlAt q.toNat
    let ptr := dmaPtrAt q.toNat
    let ended := fun (t : Chip) => t.rf ptr 31 0 = (c.rf ptr 31 0 + 1) % 2 ^ 32 ∧ t.reg ctl = c.reg ctl
    let halted := fun (t : Chip) => t.rf ctl 63 62 = 1 ∧ t.reg ptr = c.reg ptr
    (∀ (who : Requester) (v : Datum),
      (c.writable who ptr → Yields (.dmaDoorbell who q v) s (fun t => t.rf ptr 63 32 = fld v 63 32 ∧
        t.rf ptr 31 0 = c.rf ptr 31 0)) ∧
      (c.writable who ctl → bit v 63 = true → Yields (.dmaQueueEnable who q v) s (fun t => t.rf ctl 63 62 = 2 ∧
        t.rf ctl 55 45 = fld v 55 45 ∧ t.rf ctl 43 0 = fld v 43 0 ∧ t.reg ptr = c.reg ptr))) ∧
    (∀ (slot : Nat) (e : Chip) (d : DmaDesc), c.nextSlot q.toNat = some slot → c.readDesc q.toNat slot = (e, d) →
      d.fence = false → c.latent = [] →
      (∀ i ∈ [Instr.dmaNop q, Instr.hostToModule q, Instr.moduleToHost q], d.err ≠ 0 → Yields i s halted) ∧
      (d.err = 0 →
        (d.op = 0 → Yields (.dmaNop q) s (fun t => ended t ∧ (memWord t.mem (slot + 24)).dat = 0x8000000000000000)) ∧
        (d.op = 1 → Yields (.hostToModule q) s (fun t => .dmaRead q.toNat d.haddr d.len ∈ t.out ∧
          t.pcie.reads = c.pcie.reads ++ [⟨q.toNat, BitVec.ofNat 52 slot, d.len, d.haddr, BitVec.ofNat 52 d.maddr, d.irq, 0⟩] ∧
          t.reg ptr = c.reg ptr)) ∧
        (d.op = 2 → (∀ i, i < d.len → isPoison (c.word ((d.maddr + i) / 8 * 8)) = false) →
          Yields (.moduleToHost q) s (fun t => ended t ∧ .dmaWrite q.toNat d.haddr ((List.range d.len).map (fun i =>
            (c.word ((d.maddr + i) / 8 * 8)).dat.extractLsb' (8 * ((d.maddr + i) % 8)) 8)) false ∈ t.out)))) ∧
    (∀ r : DmaRead, c.pcie.reads.find? (fun k => decide (k.q = q.toNat)) = some r →
      (∀ (status : BitVec 2) (data : List Byte), c.linkOk = true → status ≠ 0 →
        Yields (.dmaHostCompletion q status data) s (fun t => halted t ∧ r ∉ t.pcie.reads)) ∧
      (∀ data : List Byte, c.linkOk = true → data.length = 8 → r.len = 8 → r.done = 0 → c.latent = [] → r.maddr.toNat % 8 = 0 →
        r.slot.toNat % 32 = 0 → r.maddr.toNat ≠ r.slot.toNat + 24 → r.maddr.toNat < c.dramEnd → r.slot.toNat < c.dramEnd →
        isPoison (c.word r.maddr.toNat) = false → Yields (.dmaHostCompletion q 0 data) s (fun t => ended t ∧
          r ∉ t.pcie.reads ∧ memWord t.mem r.maddr.toNat = ⟨0, BitVec.ofNat 64 (ofBytes data)⟩)) ∧
      (∀ data : List Byte, c.linkOk = true → r.done + data.length < r.len →
        Yields (.dmaHostCompletion q 0 data) s (fun t => t.reg ptr = c.reg ptr ∧ t.reg ctl = c.reg ctl ∧
          { r with done := r.done + data.length } ∈ t.pcie.reads)) ∧
      (∀ idx : Nat, c.pcie.loads = [] → c.pcie.reads[idx]? = some r → Yields (.completionTimeout idx) s (fun t =>
        halted t ∧ r ∉ t.pcie.reads)))

/-- R579, R580, R585, R595, R596, R605, R637: the responder answers each request that its path and its session allow, and refuses
one that needs a session without it; a mailbox object waits for its answer; sessions, keys, nonces and UCAL change as asked. -/
def Obligations.SpdmResults : Prop :=
  ∀ (s : State) (p : SpdmPath),
    let c := s.chip
    let replies := fun (t : Chip) (l : List Byte) => .spdm p l ∈ t.out ∧ (p.i3c = false → t.pcie.doeBusy = false)
    let mine := fun (z : SpdmSession) => some z.id = p.secured ∧ z.i3c = p.i3c
    (∀ (k : BitVec 8) (obj : List Byte), c.linkOk = true → c.pcie.doeBusy = false → obj.length ≤ 65536 →
      (k = 0 → Yields (.doeRequest k obj) s (fun t => .doe (Config.spdmBody 10) ∈ t.out ∧ t.pcie.doeBusy = false)) ∧
      (k = 1 ∨ k = 2 → Yields (.doeRequest k obj) s (fun t => t.pcie.doeBusy = true))) ∧
    (∀ n : Nat, c.spdmReach p = true → c.hdf.halted = some n → c.mode = .boot →
      Yields (.getVersion p) s (fun t => replies t [BitVec.ofNat 8 n] ∧ t.hdf = c.hdf)) ∧
    (∀ idx : Nat, Yields (.nonceExpiry idx) s (fun t => t.hdf.nonces = c.hdf.nonces.eraseIdx idx)) ∧
    (c.spdmReach p = true → c.hdf.halted = none → c.hdf.lifecycle ≠ .scrapped →
      (p.secured = none →
        Yields (.getVersion p) s (fun t => replies t (Config.spdmBody 0) ∧ t.conn p = ⟨true, false, false⟩) ∧
        ((c.conn p).version = true → Yields (.getCapabilities p) s (fun t => replies t (Config.spdmBody 1) ∧ (t.conn p).caps = true)) ∧
        ((c.conn p).caps = true → Yields (.negotiateAlgorithms p) s (fun t => replies t (Config.spdmBody 2) ∧ (t.conn p).algs = true)) ∧
        ((c.conn p).algs = true →
          (∀ l : List Byte, l.length = 32 → Yields (.challenge p 0 l) s (fun t =>
            replies t (Config.spdmBody 4 ++ Config.aliasSign c.aliasSeed (Config.sha384 (l ++ Config.spdmBody 4))))) ∧
          (∀ x : List Byte, (c.hdf.sessions.filter (fun z => z.i3c == p.i3c)).length < (if p.i3c then 2 else 4) →
            Yields (.keyExchange p 0 x) s (fun t =>
              t.hdf.sessions = c.hdf.sessions ++ [⟨BitVec.ofNat 16 c.freeSession, p.i3c, false, 0⟩])))) ∧
      ((c.conn p).algs = true → c.openOrSecured p = true →
        Yields (.getDigests p) s (fun t => replies t (digestBytes (Config.sha384 (Config.certChain c.aliasSeed 0)))) ∧
        (∀ off len : BitVec 16, Yields (.getCertificate p 0 off len) s (fun t =>
          if off.toNat < (Config.certChain c.aliasSeed 0).length then
            replies t (((Config.certChain c.aliasSeed 0).drop off.toNat).take len.toNat)
          else .spdmError p ∈ t.out)) ∧
        (∀ (i : BitVec 8) (l : List Byte), 1 ≤ i.toNat → i.toNat ≤ 16 → Yields (.getMeasurements p i false l) s (fun t =>
          replies t (digestBytes (c.slot (i.toNat - 1)))))) ∧
      (∀ (z : SpdmSession) (v : List Byte), c.sessionOf p = some z → z.done = false →
        Yields (.finish p v) s (fun t => if Config.freeBit c.fresh then replies t (Config.spdmBody 6) ∧
          (∀ y ∈ t.hdf.sessions, mine y → y.done = true) else .spdmError p ∈ t.out ∧ ∀ y ∈ t.hdf.sessions, ¬ mine y)) ∧
      (c.securedOk p = true →
        Yields (.endSession p) s (fun t => replies t (Config.spdmBody 7) ∧ ∀ y ∈ t.hdf.sessions, ¬ mine y) ∧
        Yields (.heartbeat p) s (fun t => replies t (Config.spdmBody 8) ∧ t.hdf = c.hdf) ∧
        (∀ op : BitVec 8, op = 1 ∨ op = 2 → Yields (.keyUpdate p op) s (fun t => replies t (Config.spdmBody 9) ∧
          t.hdf.sessions = c.hdf.sessions.map (fun (y : SpdmSession) =>
            if some y.id = p.secured ∧ y.i3c = p.i3c then { y with keyGen := y.keyGen + 1 } else y))) ∧
        Yields (.nonceRequest p) s (fun t => t.hdf.nonces = c.hdf.nonces ++ [Config.random c.fresh] ∧
          replies t (bytesOf 32 (Config.random c.fresh).toNat)) ∧
        (∀ (n : BitVec 8) (ks : Bool) (key : List Byte), p.i3c = false → key.length = 32 → c.pcie.ide.length < 4 →
          Yields (.ideKm p n ks key) s (fun t => ∃ i ∈ t.pcie.ide, i.id = n ∧ i.secure = true ∧ sget i.keys (b2n ks) [] = key)) ∧
        (∀ (i : BitVec 12) (off : BitVec 16), c.mode = .provision ∨ c.mode = .maintenance → c.nvmTakes ucalBlocks → i.toNat ≤ 2741 →
          off.toInt.natAbs ≤ (ucalRange i.toNat).natAbs → Yields (.ucalWrite p i off) s (fun t =>
            sget t.nvm.ucal i.toNat 0 = off.toInt ∧ t.nvm.live = c.nvm.live))) ∧
      (c.securedOk p = false → ∀ r ∈ [Instr.endSession p, .heartbeat p, .keyUpdate p 1, .nonceRequest p, .ucalWrite p 0 0],
        Yields r s (fun t => .spdmError p ∈ t.out ∧ t.hdf = c.hdf ∧ t.nvm = c.nvm)))

/-- R25, R597–R601, R604–R607, R609, R610: a debug token opens its session; a lifecycle token that verifies in its mode and state
commits its transition, zeroising what R598 names, at once from PROVISION and otherwise from the next STANDBY; a token that does
not verify is refused and changes nothing else. -/
def Obligations.LifecycleTokens : Prop :=
  ∀ (s : State) (p : SpdmPath) (tok : List Byte),
    let c := s.chip
    (c.hdf.resetHeld = false → c.acting = false →
      (c.mode = .provision → Yields .provisioningAbandon s (fun t => t.mode = .standby ∧ t.hdf.lifecycle =
        c.hdf.next.getD c.hdf.lifecycle)) ∧
      (c.mode = .factoryTest → Yields .factoryTestExit s (fun t => t.mode = .standby))) ∧
    (c.spdmReach p = true → c.hdf.halted = none → c.hdf.lifecycle ≠ .scrapped → c.securedOk p = true →
      (∀ k : Nat, k = 1 ∨ k = 2 ∨ k = 3 → c.tokenOk tok k c.debugSigner = true → classOk c.mode c.hdf.lifecycle k = true →
        c.roomFor k (BitVec.ofNat 12 (tokFld tok 4 2)) = true → Yields (.debugToken p tok) s (fun t =>
          tokNonce tok ∉ t.hdf.nonces ∧ t.hdf.opened = min (c.hdf.opened + 1) 0xFFFF ∧
          ∃ z ∈ t.hdf.dbgs, z ∉ c.hdf.dbgs ∧ z.cls = BitVec.ofNat 2 k ∧ z.vmid = BitVec.ofNat 12 (tokFld tok 4 2) ∧
            z.clusters = BitVec.ofNat 64 (tokFld tok 8 8))) ∧
      (tok.length ≠ 289 → ∀ i ∈ [Instr.debugToken p tok, .provisionedToken p tok, .ownerClaim p tok [], .releaseToken p tok,
          .rmaToken p tok tok, .refurbish p tok, .scrap p tok, .testRun p tok, .factoryTestEntry p tok],
        Yields i s (fun t => .spdmError p ∈ t.out ∧ t.hdf = c.hdf ∧ t.nvm = c.nvm ∧ t.mode = c.mode ∧ t.mem = c.mem)) ∧
      (c.hdf.resetHeld = false → c.acting = false → c.nvmTakes lifeBlocks → c.mode = .provision → c.hdf.next = none →
        (c.hdf.lifecycle = .manufacture → c.tokenOk tok 0x16 vendorSigner = true → c.hdf.transLeft ≠ 0 →
          Yields (.provisionedToken p tok) s (fun t => t.mode = .standby ∧ t.hdf.lifecycle = .provisioned ∧ t.hdf.next = none ∧
            t.hdf.nonces = [] ∧ t.hdf.transLeft = c.hdf.transLeft - 1)) ∧
        (∀ claim : List Byte, c.hdf.lifecycle = .provisioned → claim.length = 240 → claimKey claim 0 ≠ none →
          c.tokenOk tok 0x20 (claimKey claim 0) = true → Config.ecdsaVerify (Config.sha384 (digestBytes Config.deviceId ++
            tokAt claim 0 48)) Config.vendorKey (tokAt claim 144 96) = true → c.hdf.transLeft ≠ 0 →
          Yields (.ownerClaim p tok claim) s (fun t => t.mode = .standby ∧ t.hdf.lifecycle = .deployed ∧ t.hdf.record = true ∧
            t.hdf.ownerKey = claimKey claim 0 ∧ t.hdf.blendKey = claimKey claim 1 ∧ t.hdf.himageKey = claimKey claim 2))) ∧
      (c.acting = false → c.nvmTakes lifeBlocks → c.mode = .maintenance → c.hdf.next = none →
        (c.hdf.lifecycle = .deployed → c.tokenOk tok 0x11 c.hdf.ownerKey = true → c.hdf.transLeft ≠ 0 →
          Yields (.releaseToken p tok) s (fun t => t.mode = .maintenance ∧ t.hdf.next = some .provisioned ∧
            t.hdf.lifecycle = .deployed ∧ t.hdf.ownerKey = none ∧ t.nvm.ucal = [])) ∧
        (∀ v : List Byte, c.hdf.lifecycle = .deployed → c.tokenOk tok 0x12 c.hdf.ownerKey = true →
          c.tokenOk v 0x12 vendorSigner = true → tokNonce tok = tokNonce v → c.hdf.transLeft ≠ 0 →
          Yields (.rmaToken p tok v) s (fun t => t.hdf.next = some .rma ∧ t.hdf.ownerKey = none ∧
            t.canary.slots = if tokFld tok 3 1 = 1 ∧ tokFld v 3 1 = 1 then c.canary.slots else [])) ∧
        (c.hdf.lifecycle = .rma → c.tokenOk tok 0x13 vendorSigner = true → c.hdf.transLeft ≠ 0 →
          Yields (.refurbish p tok) s (fun t => t.hdf.next = some .provisioned ∧ t.canary.slots = [])) ∧
        (c.tokenOk tok 0x14 c.debugSigner = true → Yields (.scrap p tok) s (fun t => t.hdf.next = some .scrapped ∧
          t.canary.slots = [] ∧ t.hdf.ownerKey = none ∧ t.hdf.blendKey = none ∧ t.hdf.himageKey = none)) ∧
        (c.hdf.lifecycle = .rma → c.tokenOk tok 0x15 vendorSigner = true → Yields (.testRun p tok) s (fun t =>
          t.hdf.record = true ∧ t.hdf.next = none ∧ t.hdf.lifecycle = .rma))) ∧
      (c.mode = .standby → c.hdf.lifecycle = .manufacture ∨ c.hdf.lifecycle = .rma → c.tokenOk tok 3 vendorSigner = true →
        c.tapHolds = false → c.acting = false → Yields (.factoryTestEntry p tok) s (fun t => t.mode = .factoryTest ∧ ∃ z ∈ t.hdf.dbgs, z.cls = 3)))

/-- R603, R606, R660–R666: what a session's requests do to a thread in its scope and to the Canary, trace, memory and stores;
a request above the session's class is answered with ERROR and has no effect. -/
def Obligations.DebugSession : Prop :=
  ∀ (s : State) (q : Nat) (h : Hart) (d : DbgSession),
    let c := s.chip
    let x := c.hart h
    c.hdf.dbgs.find? (fun k => decide (k.id = q)) = some d →
    (d.cls.toNat < 2 → ∀ i ∈ [Instr.halt q h, .debugResume q h, .step q h, .readReg q h .pc, .writeReg q h .pc (.raw 0),
        .readMem q h 0, .writeMem q h 0 (.raw 0), .setBp q h 0 0, .setWp q h false 0, .d3Access q (.controlStore 0 0) none],
      Yields i s (fun t => .debugError q ∈ t.out ∧ t.harts = c.harts ∧ t.mem = c.mem)) ∧
    (1 ≤ d.cls.toNat →
      (∀ (r : BitVec 4) (a n : Nat), r.toNat ≤ 8 → Yields (.readLive q r a n) s (fun t => t.canary = c.canary ∧
        .debug q ((((sget c.canary.rings r.toNat []).drop a).take n).flatMap Entry.words) ∈ t.out)) ∧
      (∀ (k : BitVec 3) (z : Snapshot) (a n : Nat), c.canary.slots.lookup k.toNat = some z → z.valid = true →
        Yields (.readSnapshot q k true a n) s (fun t => .debug q z.descriptor ∈ t.out) ∧
        Yields (.readSnapshot q k false a n) s (fun t =>
          .debug q (((slotWords z.rings).drop (4 * a)).take (4 * n)) ∈ t.out)) ∧
      (c.canary.frozen = false → c.canary.staging = none → Yields (.debugFreeze q) s (fun t => t.canary.frozen = true ∧
        t.canary.staging.map (fun z => z.trig) = some 0x20)) ∧
      (d.cls.toNat < 3 → c.rf trcCtlAt 63 63 = 0 ∨ c.rf trcCtlAt 11 0 = d.vmid.toNat →
        Yields (.traceStart q) s (fun t => t.rf trcCtlAt 63 63 = 1 ∧ t.rf trcCtlAt 11 0 = d.vmid.toNat)) ∧
      (d.cls.toNat < 3 → c.rf trcCtlAt 11 0 = d.vmid.toNat → Yields (.traceStop q) s (fun t => t.rf trcCtlAt 63 63 = 0)) ∧
      (∀ (a n : Nat) (e : Chip) (l : List Datum), c.ownTrace d = true →
        a + n ≤ min c.trcRoom (c.rf (Blk.dbg.base 0 + 0x110) 31 0) →
        c.rawWords (wordsFrom (c.rf (Blk.dbg.base 0 + 0x100) 51 16 * 2 ^ 16 + 32 * a) (4 * n)) = (e, some l) →
        Yields (.readTrace q a n) s (fun t => .debug q l ∈ t.out))) ∧
    (2 ≤ d.cls.toNat → c.inScope d h = true →
      (x.run ≠ .dbg → Yields (.halt q h) s (fun t => (t.hart h).haltReq = true ∧ (t.hart h).run = x.run)) ∧
      (x.atBoundary = true → c.haltDue h = true → Yields (.haltTakesEffect h) s (fun t => (t.hart h).run = .dbg ∧
        (t.hart h).pc = x.pc ∧ (t.hart h).haltReq = false)) ∧
      (x.run = .dbg → Yields (.debugResume q h) s (fun t => (t.hart h).run = x.dbgBefore ∧ (t.hart h).pc = x.pc ∧
        (t.hart h).dbgSkip = true)) ∧
      (x.run = .dbg → c.acceptable h = none → Yields (.step q h) s (fun t => (t.hart h).run = x.dbgBefore ∧
        (t.hart h).dbgStep = true ∧ (t.hart h).pc = x.pc)) ∧
      (x.run = .dbg →
        Yields (.readReg q h .pc) s (fun t => .debug q [0x12, x.pc] ∈ t.out) ∧
        (∀ (r : DbgReg) (w : Word) (e : Chip), regRead h r c = .ok w e → Yields (.readReg q h r) s (fun t =>
          .debug q [w.tag.zeroExtend 64, if isPoison w then Config.freeDatum e.fresh else w.dat] ∈ t.out)) ∧
        (∀ w : Word, c.producible w = true → Yields (.writeReg q h .pc w) s (fun t => (t.hart h).pc = pcForm w.dat)) ∧
        (∀ (i : Nat) (w : Word) (e : Chip), c.producible w = true → i < 416 → lazyPreg h i c = .ok () e →
          Yields (.writeReg q h (.preg i) w) s (fun t => (t.hart h).preg i = w))) ∧
      (∀ (k : BitVec 2) (b : Bool) (v : Datum),
        Yields (.setBp q h k v) s (fun t => sget (t.hart h).sbp (4 * d.id + k.toNat) 0 = v &&& sprMask 0x140) ∧
        Yields (.setWp q h b v) s (fun t => sget (t.hart h).swp (2 * d.id + b2n b) 0 = v &&& sprMask 0x144))) ∧
    (d.cls = 3 →
      (∀ (a : Datum) (w : Word), a.toNat % 8 = 0 → c.region a.toNat = .dram →
        (c.latent = [] → c.seenWord h a.toNat = w → isPoison w = false → Yields (.readMem q h a) s (fun t =>
          .debug q [w.tag.zeroExtend 64, w.dat] ∈ t.out)) ∧
        (c.producible w = true → Yields (.writeMem q h a w) s (fun t => memWord t.mem a.toNat = w))) ∧
      (∀ (k : BitVec 6) (ua : BitVec 14) (w : BitVec 144),
        Yields (.d3Access q (.controlStore k ua) none) s (fun t => .debug q (lanes (c.storeWord k.toNat ua.toNat)) ∈ t.out) ∧
        (0x3800 ≤ ua.toNat → Yields (.d3Access q (.controlStore k ua) (some w)) s (fun t => t.blendWord k.toNat ua.toNat = w)) ∧
        (ua.toNat < 0x3000 → Yields (.d3Access q (.controlStore k ua) (some w)) s (fun t => .debugError q ∈ t.out ∧
          t.blend = c.blend ∧ t.patch = c.patch)) ∧
        exec (.d3Access q .headframe (some w)) s = .refused .headframeInternals))

/-- R643–R659, R687: CAN_SNAP_CMD's operations and their errors, the commit of a snapshot, the watchdog, software entries, and
a sample of the Lamp. -/
def Obligations.CanaryResults : Prop :=
  ∀ (s : State) (who : Requester) (v : Datum),
    let c := s.chip
    let at_ := can + 0x110
    let slot := fld v 59 57
    let a := fld v 51 6 * 64
    let copied := fun (t : Chip) (z : Snapshot) => t.rf at_ 55 52 = 0 ∧
      ∀ (i : Nat) (w : Datum), a + 8 * (z.descriptor ++ slotWords z.rings).length ≤ c.dramEnd →
        (z.descriptor ++ slotWords z.rings)[i]? = some w → memWord t.mem (a + 8 * i) = .raw w
    (c.writable who at_ → bit v 63 = true →
      (c.canary.frozen = true → ∀ e ∈ ([(Instr.copy, 0), (Instr.copyLive, 1), (Instr.protect, 2), (Instr.unprotect, 3),
          (Instr.erase, 4), (Instr.freeze, 5)] : List ((Requester → Datum → Instr) × Nat)),
        fld v 62 60 = e.2 → Yields (e.1 who v) s (fun t => t.rf at_ 55 52 = 5 ∧ t.canary = c.canary ∧ t.mem = c.mem)) ∧
      (c.canary.frozen = false →
        (fld v 62 60 = 1 → a + 1310848 ≤ c.dramEnd → Yields (.copyLive who v) s (fun t => copied t c.liveSnapshot)) ∧
        (fld v 62 60 = 1 → c.dramEnd < a + 1310848 → Yields (.copyLive who v) s (fun t => t.rf at_ 55 52 = 1 ∧ t.mem = c.mem)) ∧
        (fld v 62 60 = 5 → c.canary.staging = none → Yields (.freeze who v) s (fun t => t.rf at_ 55 52 = 0 ∧
          t.canary.frozen = true)) ∧
        (∀ z : Snapshot, c.canary.slots.lookup slot = some z → z.valid = true →
          (fld v 62 60 = 0 → a + 1310848 ≤ c.dramEnd → Yields (.copy who v) s (fun t => copied t z)) ∧
          (∀ k, fld v 62 60 = 2 → k < 8 → k ≠ slot → c.canary.slots.lookup k = none → Yields (.protect who v) s (fun t =>
            t.rf at_ 55 52 = 0 ∧ t.canary.slots.lookup slot = some { z with prot := true })) ∧
          (fld v 62 60 = 3 → Yields (.unprotect who v) s (fun t => t.rf at_ 55 52 = 0 ∧
            t.canary.slots.lookup slot = some { z with prot := false })) ∧
          (fld v 62 60 = 4 → z.prot = false → Yields (.erase who v) s (fun t => t.rf at_ 55 52 = 0 ∧
            t.canary.slots.lookup slot = some { z with valid := false })) ∧
          (fld v 62 60 = 4 → z.prot = true → Yields (.erase who v) s (fun t => t.rf at_ 55 52 = 2 ∧ t.canary = c.canary))))) ∧
    (∀ (z : Snapshot) (i : Nat), c.canary.staging = some z → c.latent = [] → c.commitSlot = some i →
      (fld ((z.trig ||| z.late).zeroExtend 64) 4 3 = 0 → Yields .snapshotCommitComplete s (fun t => t.canary.frozen = false ∧
        t.canary.staging = none ∧ t.canary.commits = c.canary.commits + 1 ∧ t.rf (can + 0x100) 10 8 = i % 8 ∧
        (t.canary.slots.lookup i).map (fun y => (y.commit, y.trig, y.late, y.rings)) =
          some (c.canary.commits + 1, z.trig, z.late, z.rings))) ∧
      (fld ((z.trig ||| z.late).zeroExtend 64) 4 3 ≠ 0 → Yields .snapshotCommitComplete s (fun t => t.mode = .off ∧
        (t.canary.slots.lookup i).map (fun y => y.rings) = some z.rings))) ∧
    (c.writable who (can + 0x108) → bit v 63 = true → Yields (.kick who v) s (fun t =>
      t.rf (can + 0x108) 31 0 = c.rf (can + 0x108) 31 0 ∧ t.rf (can + 0x108) 62 62 = max (c.rf (can + 0x108) 62 62) (fld v 62 62))) ∧
    (c.rf (can + 0x108) 62 62 = 1 → c.mode ≠ .off → c.canary.staging = none → Yields .watchdogExpiry s (fun t =>
      t.rf (can + 0x100) 2 2 = 1 ∧ t.rf (can + 0x28) 1 1 = 1 ∧ t.canary.frozen = true)) ∧
    (c.writable who (can + 0x118) → 0xF000 ≤ fld v 63 48 → c.canary.frozen = false → Yields (.canSwlog who v) s (fun t =>
      ((sget t.canary.rings 8 []).getLast?).map (fun e => (fld e.w1 63 48, e.p0.toNat, fld e.w0 63 60)) =
        some (fld v 63 48, fld v 47 0, 13))) ∧
    (c.dom 96 = .on →
      let ring := c.reg (lmpPage + 0x108)
      let ptr := c.reg (lmpPage + 0x110)
      let p := ringBase ring + 512 * (fld ptr 63 32 % ringSlots ring)
      (ringClosed ring = true → Yields .lampSample s (fun t =>
        t.rf (lmpPage + 0x48) 15 0 = min (c.rf (lmpPage + 0x48) 15 0 + 1) 0xFFFF ∧ t.mem = c.mem)) ∧
      (ringClosed ring = false → ringHeld ptr < ringSlots ring → c.region p = .dram → c.dom (80 + ctlOf p) = .on →
        Yields .lampSample s (fun t => t.reg (lmpPage + 0x110) = tailUp ptr ∧ (t.word p).dat = c.now)))

/-- R257–R264, R583–R588, R592, R596: a load fetches its words and a swap writes them; BOOT's steps, its halt, a replacement
image; GO starts hart 0 at H at the image; a slot is extended; the module takes its I3C address. -/
def Obligations.BootAndBlend : Prop :=
  ∀ (s : State) (who : Requester) (k : BitVec 6) (v : Datum),
    let c := s.chip
    let K := k.toNat
    let st := bldAt K 0x118
    let count := fld v 43 32
    let dst := fld v 10 0
    (c.writable who (bldAt K 0x108) → bit v 63 = true →
      (c.rf st 0 0 = 1 → Yields (.blendLoad who k v) s (fun t => t.rf st 7 4 = 5 ∧ t.xfers = c.xfers)) ∧
      (c.rf st 0 0 = 0 → count = 0 ∨ 2048 < dst + count → Yields (.blendLoad who k v) s (fun t => t.rf st 7 4 = 1 ∧
        t.rf st 1 0 = 2 ∧ t.xfers.lookup K = none)) ∧
      (∀ l : List Datum, c.rf st 0 0 = 0 → 1 ≤ count → dst + count ≤ 2048 → c.rf (bldAt K 0x110) 12 12 = 0 → c.latent = [] →
        l.length = 3 * count → (∀ i w, l[i]? = some w → c.region (c.rf (bldAt K 0x100) 51 6 * 64 + 8 * i) = .dram ∧
          c.word (c.rf (bldAt K 0x100) 51 6 * 64 + 8 * i) = .raw w) →
        Yields (.blendLoad who k v) s (fun t => t.rf st 7 4 = 0 ∧ t.rf st 0 0 = 1 ∧
          t.xfers.lookup K = some ⟨dst, microwords l⟩))) ∧
    (∀ x : BlendXfer, c.xfers.lookup K = some x → c.midRoutine K = false → c.dom (clusterDom K) = .on →
      Yields (.blendSwap k) s (fun t => t.xfers.lookup K = none ∧ t.rf st 15 8 = (c.rf st 15 8 + 1) % 256 ∧ t.rf st 1 0 = 2 ∧
        t.rf st 7 4 = 0 ∧ sget t.blendVmid K 0 = BitVec.ofNat 12 (c.rf (bldAt K 0x110) 11 0) ∧
        (∀ i w, x.words[i]? = some w → t.blendWord K (0x3800 + x.dst + i) = w) ∧
        (∀ h : Hart, (clusterOf h).toNat = K → (t.hart h).micro = none))) ∧
    (let a := fld v 37 16 * 2 ^ 16
     let n := fld v 15 0 * 2 ^ 16
     c.writable who bootCtlAt → bit v 63 = true →
      (c.mode ≠ .boot ∨ c.hdf.step ≠ 8 ∨ c.hdf.hart0 = true → Yields (.bootGo who v) s (fun t => t.rf bootCtlAt 59 56 = 1 ∧
        t.harts = c.harts ∧ t.mode = c.mode)) ∧
      (c.mode = .boot → c.hdf.step = 8 → c.hdf.hart0 = false → c.faulted = false → c.hdf.resetHeld = false → c.acting = false →
        c.latent = [] → n ≠ 0 →
        a + n ≤ c.dramEnd → (∀ i, i < n / 8 → isPoison (c.word (a + 8 * i)) = false) → Yields (.bootGo who v) s (fun t =>
          t.rf bootCtlAt 59 56 = 0 ∧ (t.hart 0).run = .run ∧ (t.hart 0).pc = pcForm (BitVec.ofNat 64 a) ∧ (t.hart 0).pstate = 3 ∧
          t.mode = (if c.limitW < 1100 then .runCapped else .run) ∧
          (∀ i, i < n / 8 → memWord t.mem (a + 8 * i) = ⟨0x15, (memWord c.mem (a + 8 * i)).dat⟩) ∧
          (bit v 62 = false → t.slot 9 = Config.sha384 (digestBytes (c.slot 9) ++ List.replicate 48 0xFF))))) ∧
    (c.writable who extendAt → bit v 63 = true →
      (fld v 55 52 < 13 → Yields (.secExtend who v) s (fun t => t.rf extendAt 62 60 = 1 ∧ t.hdf = c.hdf)) ∧
      (∀ l : List Datum, 13 ≤ fld v 55 52 → c.latent = [] → l.length = 6 →
        (∀ i w, l[i]? = some w → c.region (fld v 51 6 * 64 + 8 * i) = .dram ∧ c.word (fld v 51 6 * 64 + 8 * i) = .raw w) →
        Yields (.secExtend who v) s (fun t => t.rf extendAt 62 60 = 0 ∧
          t.slot (fld v 55 52) = Config.sha384 (digestBytes (c.slot (fld v 55 52)) ++ datBytes l)))) ∧
    (∀ b : BootRun, c.mode = .boot → c.hdf.halted = none → c.acting = false →
      let version := fun (i : Nat) => (b.versions[i]?).getD 0
      (c.hdf.step = 0 → b.halt = 1 ∨ version 0 < sget c.hdf.fuses 0 0 → Yields (.bootSequence b) s (fun t =>
        t.hdf.halted = some 1 ∧ t.pins.faultN = false ∧ t.hdf.fuses = c.hdf.fuses)) ∧
      (c.hdf.step < 4 → b.halt = 0 → c.hdf.maint = false → c.hdf.record = true → c.rf (hdfPage + 0x100) 9 8 = 1 →
        (∀ i, i < 5 → sget c.hdf.fuses i 0 ≤ version i) → Yields (.bootSequence b) s (fun t => t.hdf.step = 8 ∧
          t.mode = .boot ∧ t.mem = [] ∧ t.pcie.released = true ∧ ∀ i, i < 5 → sget t.hdf.fuses i 0 = version i)) ∧
      (c.hdf.step = 7 → c.hdf.maint = true → c.hdf.resetHeld = false → Yields (.bootSequence b) s (fun t =>
        t.mode = .maintenance))) ∧
    (∀ (n : BitVec 4) (copyB : Bool), c.mode = .boot → c.hdf.halted = some n.toNat →
      Yields (.replacementImage n copyB true) s (fun t => t.hdf.halted = none ∧ t.hdf.step = 0) ∧
      Yields (.replacementImage n copyB false) s (fun t => t.hdf = c.hdf)) ∧
    (c.mode = .boot → c.hdf.step < 7 → c.acting = false → Yields .hostMaintenanceRequest s (fun t => t.hdf.maint = true)) ∧
    (∀ a : BitVec 7, c.mode ≠ .off → Yields (.entdaa a) s (fun t => t.hdf.i3cAddr = some a ∧
      .i3cId (Config.i3cPid ++ BitVec.ofNat 6 (c.rf (hdfPage + 0x100) 5 0)) ∈ t.out))

/-- R25–R27, R619, R630, R692, R697–R711: the requests of PWR_MODE, the supplies, PWR_EN, PWR_FAIL_N and MOD_RST_N move the
module between its modes, each where R25 lets it. -/
def Obligations.ModeResults : Prop :=
  ∀ (s : State) (who : Requester),
    let c := s.chip
    let req := pwr + 0x100
    let gone := fun (t : Chip) => ∀ h : Hart, c.dom (clusterDom (clusterOf h).toNat) ≠ .off → t.hart h = HartSt.reset
    let back := fun (t : Chip) => (c.entered = .degraded → t.mode = .degraded) ∧ (c.entered.running = true → t.mode =
      if (List.range 80).any (fun d => decide (t.dom d ≠ .on)) then .runPartial else if t.limitW < 1100 then .runCapped else .run)
    (c.writable who req →
      (c.modeOk 1 = true → c.allPrecise = true → Yields (.quiesce who) s (fun t => t.mode = .quiesced ∧ t.prev = c.mode ∧
        t.entered = c.mode ∧ t.rf req 33 32 = 1 ∧ ∀ k, k < 64 → c.dom (clusterDom k) = .on → t.dom (clusterDom k) = .retain)) ∧
      (c.modeOk 1 = false → c.hdf.resetHeld = false → Yields (.quiesce who) s (fun t => t.mode = c.mode ∧ t.rf req 33 33 = 1)) ∧
      (c.mode = .quiesced → c.acting = false →
        (c.faulted = false → c.hdf.resetHeld = false → Yields (.resume who) s (fun t => back t ∧ t.rf req 33 32 = 1)) ∧
        Yields (.maintenance who) s (fun t => t.mode = .maintenance ∧ t.rf req 33 32 = 1)) ∧
      (c.mode = .standby → c.hdf.lifecycle ≠ .scrapped → c.tapHolds = false → c.pins.modRstN = true → c.acting = false →
        c.vinOk = true → (c.power.vinStable = true → Yields (.powerOn who) s (fun t => t.mode = .boot ∧ t.hdf.step = 0)) ∧
          (c.power.vinStable = false → Yields (.powerOn who) s (fun t => t.mode = .standby ∧ t.hdf.bootHold = true)))) ∧
    (c.mode = .maintenance → c.hdf.resetHeld = false → c.acting = false → Yields .maintenanceComplete s (fun t => t.mode = .standby)) ∧
    (c.mode = .off → c.powered = true → c.pins.thermtripN = true → Yields .pwrEnAssert s (fun t => t.mode = .standby ∧
      t.pins.pwrEn = true)) ∧
    (c.mode ≠ .off → c.acting = false → Yields .pwrEnDeassert s (fun t => t.mode = .off ∧ t.harts = [] ∧
      t.time.counter = c.time.counter ∧ t.nvm = c.nvm ∧ t.pins.pwrGood = false)) ∧
    Yields .supplyLoss s (fun t => t.mode = .off ∧ t.time.counter = 0 ∧ t.nvm = c.nvm) ∧
    (∀ mv : BitVec 32, c.mode = .off → c.pins.pwrEn = true → c.pins.thermtripN = true →
      Yields (.supplyApplied true mv) s (fun t => t.mode = .standby ∧ t.power.vinMv = mv.toNat)) ∧
    (c.mode ≠ .off → c.canary.staging = none → c.canary.frozen = false → Yields .pwrFailNAssert s (fun t =>
      t.pins.pwrFailN = false ∧ t.canary.staging.map (fun z => z.trig) = some 8 ∧ gone t ∧ t.mode = c.mode)) ∧
    (c.mode ≠ .off → c.vinOk = true → Yields .pwrGoodRise s (fun t => t.power.vinStable = true ∧ t.pins.pwrGood = true ∧
      (c.hdf.bootHold = true → c.mayBoot = true → t.mode = .boot) ∧ (c.hdf.bootHold = false → t.mode = c.mode))) ∧
    (∀ ms : BitVec 32,
      (c.mode.running = true ∨ c.mode = .degraded → c.acting = false → Yields (.resetRequest ms) s (fun t =>
        t.mode = .standby ∧ gone t ∧ t.sb = [] ∧ t.pins.modRstN = false ∧ t.hdf.resetHeld = false)) ∧
      (c.mode = .boot ∨ c.mode = .quiesced ∨ c.mode = .survival → Yields (.resetRequest ms) s (fun t => t.mode = c.mode ∧
        t.hdf.resetHeld = true)) ∧
      (10 ≤ ms.toNat → c.mode ≠ .off → Yields (.resetRequest ms) s (fun t => t.nvm.trained = false))) ∧
    (c.mode ≠ .off → c.pins.modRstN = false → Yields .coldReset s (fun t => t.nvm.trained = false ∧ t.mode = c.mode) ∧
      (c.mayBoot = true → c.vinOk = true → c.power.vinStable = true → Yields .modRstNDeassert s (fun t => t.mode = .boot ∧
        t.pins.modRstN = true)))

/-- R23, R31, R36, R620–R630, R702: emergencies enter SURVIVAL and are reported, a trip also freezes the Canary; tiles are shed
and SURVIVAL is left; frequency and power limits step; cores are spared or lost and controllers fail. -/
def Obligations.EmergencyResults : Prop :=
  ∀ s : State,
    let c := s.chip
    let picked := fun (t : Chip) => if (List.range 80).any (fun d => decide (t.dom d ≠ .on)) then Mode.runPartial
      else if t.limitW < 1100 then .runCapped else .run
    (∀ (k : BitVec 7) (r : BitVec 16), c.mode.running = true → c.acting = false → k.toNat < 89 →
      (2 ≤ zoneOf k.toNat r → Yields (.survivalEntry k r) s (fun t => t.mode = .survival ∧ t.entered = c.mode ∧
        t.temp k.toNat = r ∧ ∀ h ∈ c.monitors, (t.hart h).pHe ≠ none)) ∧
      (3 ≤ zoneOf k.toNat r → c.canary.staging = none → c.canary.frozen = false → Yields (.thermalTrip k r) s (fun t =>
        t.mode = .survival ∧ t.canary.staging.map (fun z => z.trig) = some 16))) ∧
    (c.mode.running = true → c.acting = false → ∀ mv : BitVec 32, mv.toNat < 40000 ∨ 60000 < mv.toNat → Yields (.supplyEmergency mv) s (fun t =>
      t.mode = .survival ∧ t.pins.pwrGood = false)) ∧
    (c.mode.running = true → c.acting = false → c.power.refLost = false → Yields .refclkTimeLoss s (fun t => t.mode = .survival ∧
      t.power.refLost = true ∧ t.rf (tim + 0x100) 0 0 = 0)) ∧
    Yields .refclkTimeRestored s (fun t => t.power.refLost = false ∧ t.mode = c.mode) ∧
    (∀ (t : Fin 8) (k : BitVec 4) (mv : BitVec 16), c.dom (10 * t.val + 8) = .on →
      (sget c.power.droops t.val 0 < 64 → Yields (.droopTrip t k mv) s (fun d => sget d.power.droops t.val 0 =
        sget c.power.droops t.val 0 + 1 ∧ d.mode = c.mode)) ∧
      (sget c.power.droops t.val 0 = 64 → c.mode.running = true → c.acting = false → Yields (.droopTrip t k mv) s (fun d => d.mode = .survival)) ∧
      Yields (.firstUseLimitExpiry t) s (fun d => sget d.power.firstUse t.val 16 = 24)) ∧
    (∀ t : Fin 8, c.mode = .survival → c.overLimit = true → c.tileOn t.val ≠ [] → c.power.shed.getLsbD t.val = false →
      (∀ u : Fin 8, t < u → c.power.shed.getLsbD u.val = true ∨ c.tileOn u.val = []) →
      (c.tileOn t.val).all c.clusterPrecise = true → Yields .tileShed s (fun d => d.power.shed.getLsbD t.val = true ∧
        ∀ k ∈ c.tileOn t.val, d.dom (clusterDom k) = .retain)) ∧
    (c.mode = .survival → c.overLimit = false → c.vinOk = true → c.power.refLost = false → c.acting = false →
      c.faulted = false → c.hdf.resetHeld = false → Yields .survivalExit s (fun t =>
        (c.entered = .degraded → t.mode = .degraded) ∧ (c.entered.running = true → t.mode = picked t))) ∧
    (∀ t : Fin 8,
      let lim := sget c.power.thermal t.val 24
      ((∃ k ∈ tileSensors t.val, throttleAt k * 16 ≤ (c.temp k).toInt) → Yields (.thermalLimitStep t) s (fun d =>
        sget d.power.thermal t.val 24 = max (lim - 1) 8)) ∧
      ((∀ k ∈ tileSensors t.val, (c.temp k).toInt ≤ (throttleAt k - 3) * 16) → lim < 24 → c.power.raised.lookup t.val = none →
        Yields (.thermalLimitStep t) s (fun d => sget d.power.thermal t.val 24 = lim + 1)) ∧
      (c.limitW < 1100 → c.limitW < c.power.inputW → 8 < c.cur t.val → (∀ u : Fin 8, c.cur u.val ≤ c.cur t.val) →
        (∀ u : Fin 8, u < t → c.cur u.val < c.cur t.val) → Yields .powerLimitStep s (fun d =>
          sget d.power.power t.val 24 = c.cur t.val - 1))) ∧
    (∀ w mv : BitVec 32, c.mode.running = true → c.acting = false → Yields (.cappedModeChange w mv) s (fun t =>
      t.power.inputW = w.toNat ∧ t.power.vinMv = mv.toNat ∧ t.power.doms = c.power.doms ∧ t.mode = picked t)) ∧
    (∀ (core : BitVec 9) (ns : BitVec 32),
      let k := core.toNat / 8
      let hs : List Hart := (List.range 4).map (fun i => BitVec.ofNat 11 (4 * core.toNat + i))
      c.coresLost.contains core.toNat = false → c.dom (clusterDom k) = .on →
      (∀ h ∈ hs, ∀ m : Micro, (c.hart h).micro = some m → m.atCommit = true) →
      (c.spared.contains k = false → c.coreQuiet core = true → Yields (.coreSparing core ns) s (fun t => t.spared = c.spared ++ [k] ∧
        ∀ h ∈ hs, (t.hart h).resv = none)) ∧
      (c.spared.contains k = true → c.mode.running = true → c.acting = false → c.hdf.resetHeld = false →
        Yields (.coreLost core) s (fun t =>
        core.toNat ∈ t.coresLost ∧ t.mode = .degraded ∧ t.entered = c.mode ∧
        ∀ h ∈ hs, (c.hart h).run ≠ .off → (t.hart h).run = .halted))) ∧
    (∀ m : Fin 9, c.ctlFailed.getLsbD m.val = false → c.dom (80 + m.val) = .on → c.mode.running = true → c.acting = false →
      c.hdf.resetHeld = false → Yields (.controllerFailed m) s (fun t => t.ctlFailed.getLsbD m.val = true ∧ t.mode = .degraded ∧
        t.dom (80 + m.val) = .off ∧ t.mcSeen = true))

/-- R393, R614–R617, R639, R642, R668, R669: a domain request is refused with its code or held, waits for its cluster and
completes; background work moves blocks; the test access port selects its instructions where they are available. -/
def Obligations.DomainsAndTap : Prop :=
  ∀ (s : State) (who : Requester) (v : Datum),
    let c := s.chip
    let d := fld v 6 0
    (c.writable who domReqAt → bit v 63 = true →
      ∀ e ∈ ([(Instr.domainOffRequest, 0, Dom.off), (Instr.domainRetainRequest, 1, Dom.retain), (Instr.domainOnRequest, 2, Dom.on)] :
          List ((Requester → Datum → Instr) × Nat × Dom)), fld v 57 56 = e.2.1 →
        (c.domErr d e.2.1 = 0 → Yields (e.1 who v) s (fun t => t.power.req = some (d, e.2.2) ∧ t.rf domReqAt 55 51 = 1)) ∧
        (c.domErr d e.2.1 ≠ 0 → Yields (e.1 who v) s (fun t => t.power = c.power ∧ t.rf domReqAt 55 52 = c.domErr d e.2.1))) ∧
    (∀ (k : BitVec 6) (x : Dom), c.power.req = some (clusterDom k.toNat, x) → x ≠ .on → c.dom (clusterDom k.toNat) = .on →
      c.clusterPrecise k.toNat = true → Yields (.clusterDrainComplete k) s (fun t => t.dom (clusterDom k.toNat) = .trans ∧
        ∀ e ∈ t.sb, e.core.toNat / 8 ≠ k.toNat)) ∧
    (∀ (i : BitVec 7) (x : Dom), c.power.req = some (i.toNat, x) → c.acting = false → i.toNat < 96 →
      (x = .on ∨ ¬ (i.toNat < 80 ∧ i.toNat % 10 < 8) ∨ c.dom i.toNat ≠ .on) →
      Yields (.domainTransitionComplete i) s (fun t => t.power.req = none ∧ t.rf domReqAt 51 51 = 0 ∧ t.dom i.toNat = x)) ∧
    (∀ m : Fin 9, Yields (.phyRetraining m) s (fun t => t.mem = c.mem ∧ t.harts = c.harts ∧ t.pages = c.pages)) ∧
    (∀ (b : BitVec 11) (p : Nat), c.mode ≠ .off → b.toNat < 1200 → c.nvmTakes [b.toNat] → p ∈ c.nvm.spares →
      (∀ q ∈ c.nvm.spares, q ≠ p → sget c.nvm.writes p 0 < sget c.nvm.writes q 0) →
      sget c.nvm.writes p 0 + 10 ^ 6 < sget c.nvm.writes (c.nvm.phys b.toNat) 0 → Yields (.wearLevellingMove b) s (fun t =>
        t.nvm.phys b.toNat = p ∧ sget t.nvm.writes p 0 = sget c.nvm.writes p 0 + 1)) ∧
    (c.mode ≠ .off → ∀ cells : BitVec 32,
      Yields .idcode s (fun t => t.tap.ir = 1 ∧ t.tap.dr.extractLsb' 28 4 = 5 ∧
        t.tap.dr.extractLsb' 12 16 = 0x0909 ∧ t.tap.dr.getLsbD 0 = true) ∧
      Yields .tapReset s (fun t => t.tap.ir = 1 ∧ t.tap.dr.extractLsb' 28 4 = 5 ∧
        t.tap.dr.extractLsb' 12 16 = 0x0909 ∧ t.tap.dr.getLsbD 0 = true) ∧
      Yields (.samplePreload cells) s (fun t => t.tap.ir = 2 ∧ t.tap.preload = cells) ∧
      (∀ e ∈ [(Instr.extest cells, (3 : Byte)), (.clamp, 4), (.highz, 5)],
        (c.mode = .standby → Yields e.1 s (fun t => t.tap.ir = e.2 ∧ t.tap.preload = c.tap.preload ∧ t.tapHolds = true)) ∧
        (c.mode ≠ .standby → Yields e.1 s (fun t => t.tap.ir = 0xFF ∧ t.tap.dr = 0))) ∧
      (∀ k : BitVec 8, tapAssigned k = false → Yields (.bypass k) s (fun t => t.tap.ir = 0xFF ∧ t.tap.dr = 0)) ∧
      (∀ k : BitVec 8, 0x80 ≤ k.toNat → k ≠ 0xFF →
        ((∃ z ∈ c.hdf.dbgs, z.cls = 3) → Yields (.tapPrivate k) s (fun t => t.tap.ir = k)) ∧
        ((∀ z ∈ c.hdf.dbgs, z.cls ≠ 3) → Yields (.tapPrivate k) s (fun t => t.tap.ir = 0xFF ∧ t.tap.dr = 0))))

/-- A step runs the command at the front of the queue on the rest of the queue; an empty queue idles (a model's choice,
log entry 11). -/
def Obligations.StepRunsFront : Prop :=
  ∀ s : State, (∀ (i : Instr) (rest : List Instr), s.pending = i :: rest → step s = exec i { s with pending := rest }) ∧
    (s.pending = [] → step s = .next s)

/-- R14, R82, R83, R89, R123, R132, R133, R412, R531, R557, R614, R621: what reset leaves: an empty queue (the model's own),
every word of local DRAM RAW zero in a memory of canonical form, no thread started, PSTATE with PRIV 3, the other context
registers 0 but WIN_PTR and DIRTY_MASK, TIMER_CMP unarmed, every domain ON, mode BOOT after STANDBY, registers of pages at their
reset values; the window and global registers RAW zero, which is the model's choice (log entry 4); and the invariant holds. -/
def Obligations.ResetFacts : Prop :=
  State.reset.pending = [] ∧ Memory.wf State.reset.chip.mem = true ∧ State.reset.chip.Settled ∧
  (∀ p : Nat, p < 2 ^ 38 → p % 8 = 0 → State.reset.chip.word p = ⟨0, 0⟩) ∧
  (∀ h : Hart, (State.reset.chip.hart h).run = .off ∧ (State.reset.chip.hart h).pstate = 3 ∧
    (State.reset.chip.hart h).winPtr = 0x100 ∧ (State.reset.chip.hart h).sprD 0x081 = 0xFFFF ∧
    (State.reset.chip.hart h).timerArmed = false ∧ (State.reset.chip.hart h).resv = none ∧
    (∀ n ∈ [0x003, 0x004, 0x005, 0x006, 0x007, 0x008, 0x009, 0x00A, 0x00C, 0x00D, 0x00E, 0x00F, 0x04C, 0x04F, 0x080, 0x082, 0x083],
      (State.reset.chip.hart h).sprD n = 0) ∧ ∀ i, (State.reset.chip.hart h).preg i = .raw 0) ∧
  (∀ m, m < 9 → State.reset.chip.reg (Blk.mem.base m + 0x118) = 0x102D0) ∧
  State.reset.chip.reg (Blk.dft.base 4 + 0x118) = 0x0000004003E80014 ∧ State.reset.chip.rf (Blk.pwr.base 0 + 0x100) 3 0 = 2 ∧
  State.reset.chip.rf (Blk.pwr.base 0 + 0x100) 11 8 = 1 ∧
  (∀ d, d < 96 → State.reset.chip.dom d = .on)

/-- R681, R699: every step keeps it so that the asserted pages are those whose IRQ_STATUS and IRQ_ENABLE meet, and that
PWR_GOOD, FAULT_N and ALERT_N are driven as the mode, the supply, the machine checks and the temperatures say. -/
def Obligations.StepInvariant : Prop :=
  ∀ s t : State, s.chip.Settled → step s = .next t → t.chip.Settled

/-- R395: the controller and the slot of a granule are those of its pseudocode; a controller and a slot determine the
granule; and each nine consecutive granules from a multiple of nine land on all nine controllers. -/
def Obligations.HbmPlacement : Prop :=
  (∀ p : Nat, ∃ q i h : Nat, i < 9 ∧ p / 512 = 9 * q + i ∧ h = (q + q / 2 ^ 9 + q / 2 ^ 18) % 9 ∧
    ctlOf p = (i + h) % 9 ∧ slotOfGranule (p / 512) = q) ∧
  (∀ a b : Nat, ctlOfGranule a = ctlOfGranule b → slotOfGranule a = slotOfGranule b → a = b) ∧
  (∀ q m : Nat, m < 9 → ∃ i, i < 9 ∧ ctlOfGranule (9 * q + i) = m)

/-- R85, R87, R88: with no group awaiting its lazy load and no stale pointer, a specifier reads and writes the register of
the current window it selects; ZR reads RAW zero, NL reads NIL and both discard writes; SP and TP keep the datum and refuse
POISON; different specifiers select different registers, and the P registers of a window are the A registers of the next. -/
def Obligations.RegisterSpecifiers : Prop :=
  (∀ (h : Hart) (r : BitVec 6) (w : Word) (c : Chip), c.Plain h →
    (r = 48 → readSpec h r c = .ok (.raw 0) c ∧ writeSpec h r w c = .ok () c) ∧
    (r = 49 → readSpec h r c = .ok ⟨0x04, 0⟩ c ∧ writeSpec h r w c = .ok () c) ∧
    (r.toNat < 48 → ∃ (i : Nat) (t : Chip), pregOf (c.hart h).cwp r = some i ∧ i < 400 ∧
      readSpec h r c = .ok ((c.hart h).preg i) c ∧ writeSpec h r w c = .ok () t ∧ (t.hart h).preg i = w ∧
      (∀ j, j ≠ i → (t.hart h).preg j = (c.hart h).preg j) ∧ (∀ n, n ≠ 0x081 → (t.hart h).sprW n = (c.hart h).sprW n) ∧
      (∀ k, k ≠ h → t.hart k = c.hart k) ∧ t.mem = c.mem) ∧
    (r = 50 ∨ r = 51 → ∃ i : Nat, pregOf (c.hart h).cwp r = some i ∧ 416 ≤ i ∧
      (((c.hart h).preg i).tag = 0 → readSpec h r c = .ok (.raw ((c.hart h).preg i).dat) c) ∧
      (isPoison w = true → writeSpec h r w c = .error (.trap { cause := 0x05 }) c) ∧
      (isPoison w = false → ∃ t : Chip, writeSpec h r w c = .ok () t ∧ (t.hart h).preg i = .raw w.dat ∧
        (∀ j, j ≠ i → (t.hart h).preg j = (c.hart h).preg j) ∧
        (∀ k, k ≠ h → t.hart k = c.hart k) ∧ t.mem = c.mem))) ∧
  (∀ (w : Nat) (r q : BitVec 6), w < 16 → r.toNat < 52 → q.toNat < 52 → r ≠ 48 → r ≠ 49 → pregOf w r = pregOf w q → r = q) ∧
  (∀ (w : Nat) (k : Nat), w < 16 → k < 8 →
    pregOf w (BitVec.ofNat 6 (16 + k)) = pregOf ((w + 1) % 16) (BitVec.ofNat 6 (40 + k)))

/-- The frame of the instructions on registers (R107, R124, R149, R153, R155): such an instruction that completes leaves
every register but its rd, every special register but COND or FP_FLAGS where it writes them, all memory, every other thread
and the register pages as they were, but for what completion itself counts; so does the fetch before it. -/
def Obligations.RegisterFrames : Prop :=
  (∀ e ∈ ([(Instr.add, insnAdd, true, []), (Instr.sub, insnSub, true, []), (Instr.mul, insnMul, true, []),
      (Instr.mulh, insnMulh, true, []), (Instr.div, insnDiv, true, []), (Instr.rem, insnRem, true, []),
      (Instr.and, insnAnd, true, []), (Instr.or, insnOr, true, []), (Instr.xor, insnXor, true, []),
      (Instr.shl, insnShl, true, []), (Instr.shr, insnShr, true, []), (Instr.sar, insnSar, true, []),
      (Instr.clz, insnClz, true, []), (Instr.ctz, insnCtz, true, []), (Instr.popc, insnPopc, true, []),
      (Instr.bfx, insnBfx, true, []), (Instr.bfi, insnBfi, true, []), (Instr.bperm, insnBperm, true, []),
      (Instr.typeof, insnTypeof, true, []), (Instr.mkfix, insnMkfix, true, []), (Instr.cmp, insnCmp, false, [0x00F]),
      (Instr.eq, insnEq, true, [0x00F]), (Instr.fadd, insnFadd, true, [0x00E]), (Instr.fsub, insnFsub, true, [0x00E]),
      (Instr.fmul, insnFmul, true, [0x00E]), (Instr.fdiv, insnFdiv, true, [0x00E]), (Instr.fma, insnFma, true, [0x00E]),
      (Instr.fcvtIf, insnFcvtIf, true, [0x00E]), (Instr.fcvtFi, insnFcvtFi, true, [0x00E]),
      (Instr.fcvtFn, insnFcvtFn, true, [0x00E]), (Instr.fcvtBf, insnFcvtBf, true, []),
      (Instr.fcmp, insnFcmp, false, [0x00E, 0x00F])] :
      List ((Hart → AOps → Instr) × (Hart → AOps → Insn) × Bool × List Nat)),
    ∀ (s : State) (h : Hart) (o : AOps) (c d : Chip) (f : Flow), Starts s h (e.2.1 h o) c → c.Plain h →
      (c.hart h).dbgStep = false → (e.2.1 h o).body c = .ok f d →
      ∃ t, exec (e.1 h o) s = .next t ∧ t.pending = s.pending ∧ t.chip.sb = c.sb ∧
        c.Keeps t.chip h (if e.2.2.1 then (pregOf (c.hart h).cwp o.rd).toList else []) (completionSprs ++ e.2.2.2)) ∧
  (∀ e ∈ ([(Instr.addi, insnAddi, true, []), (Instr.andi, insnAndi, true, []), (Instr.ori, insnOri, true, []),
      (Instr.xori, insnXori, true, []), (Instr.shli, insnShli, true, []), (Instr.shri, insnShri, true, []),
      (Instr.sari, insnSari, true, []), (Instr.shori, insnShori, true, []), (Instr.cmpi, insnCmpi, false, [0x00F]),
      (Instr.tagchk, insnTagchk, false, [0x00F])] :
      List ((Hart → IOps → Instr) × (Hart → IOps → Insn) × Bool × List Nat)),
    ∀ (s : State) (h : Hart) (o : IOps) (c d : Chip) (f : Flow), Starts s h (e.2.1 h o) c → c.Plain h →
      (c.hart h).dbgStep = false → (e.2.1 h o).body c = .ok f d →
      ∃ t, exec (e.1 h o) s = .next t ∧ t.pending = s.pending ∧ t.chip.sb = c.sb ∧
        c.Keeps t.chip h (if e.2.2.1 then (pregOf (c.hart h).cwp o.rd).toList else []) (completionSprs ++ e.2.2.2)) ∧
  (∀ (s : State) (h : Hart) (i : Insn) (c : Chip), Starts s h i c → (s.chip.landed h).Plain h →
    c.Plain h ∧ (s.chip.landed h).Keeps c h [] [] ∧ c.hart h = (s.chip.landed h).hart h ∧ c.sb = s.chip.sb)

/-- The frame of the loads and stores of DRAM (R71, R73, R158, R159, R361): a load changes no register before it lands, no
memory and nothing of another thread; a store changes no register, and of all words as its thread reads them only the bytes
it stores to, in the line's buffer entry, so that memory and what every other thread reads stay as they were. -/
def Obligations.MemoryFrames : Prop :=
  ∀ (s : State) (h : Hart) (o : IOps) (a : Datum) (w : Word) (c d e1 : Chip), c.Plain h → (c.hart h).dbgStep = false →
    c.region (a.toNat % 2 ^ 55) = .dram →
    (∀ e ∈ ([(Instr.ldw, insnLdw, 8), (Instr.ldb, insnLdb, 1), (Instr.ldh, insnLdh, 2), (Instr.ldq, insnLdq, 4),
        (Instr.ldd, insnLdd, 8)] : List ((Hart → IOps → Instr) × (Hart → IOps → Insn) × Nat)),
      Starts s h (e.2.1 h o) c → addrOf h o e.2.2 c = .ok a e1 →
      c.stale (c.hart h) (c.seenWord h (a.toNat % 2 ^ 55 / 8 * 8)) = false → (e.2.1 h o).body c = .ok .seq d →
      ∃ t, exec (e.1 h o) s = .next t ∧ t.pending = s.pending ∧ t.chip.sb = c.sb ∧ c.Keeps t.chip h [] completionSprs ∧
        ∃ v, (t.chip.hart h).landings = ((c.hart h).landings ++ ((pregOf (c.hart h).cwp o.rd).toList.map
          (fun i => Landing.mk i v 3))).map (fun l => Landing.mk l.preg l.word (l.slots - 1))) ∧
    (∀ e ∈ ([(Instr.stw, insnStw, 8), (Instr.stb, insnStb, 1), (Instr.sth, insnSth, 2), (Instr.stq, insnStq, 4),
        (Instr.std, insnStd, 8)] : List ((Hart → IOps → Instr) × (Hart → IOps → Insn) × Nat)),
      Starts s h (e.2.1 h o) c → addrOf h o e.2.2 c = .ok a e1 → src h o.rd c = .ok w e1 →
      (c.sb.filter (fun x => decide (x.core = coreOf h))).length < 32 → (e.2.1 h o).body c = .ok .seq d →
      ∃ t, exec (e.1 h o) s = .next t ∧ t.pending = s.pending ∧ c.Keeps t.chip h [] completionSprs ∧
        (t.chip.hart h).landings = (c.hart h).landings.map (fun l => Landing.mk l.preg l.word (l.slots - 1)) ∧
        (∀ (k : Hart) (q : Nat), k ≠ h → t.chip.seenWord k q = c.seenWord k q) ∧
        (e.1 h o = .stw h o → t.chip.seenWord h (a.toNat % 2 ^ 55) = w) ∧
        (e.1 h o ≠ .stw h o → (t.chip.seenWord h (a.toNat % 2 ^ 55 / 8 * 8)).tag = 0) ∧
        ∀ q : Nat, q < 2 ^ 38 → q % 8 = 0 →
          (q ≠ a.toNat % 2 ^ 55 / 8 * 8 → t.chip.seenWord h q = c.seenWord h q) ∧
          ∀ i : Nat, i < 8 → (t.chip.seenWord h q).dat.extractLsb' (8 * i) 8 =
            if a.toNat % 2 ^ 55 ≤ q + i ∧ q + i < a.toNat % 2 ^ 55 + e.2.2
            then w.dat.extractLsb' (8 * (q + i - a.toNat % 2 ^ 55)) 8
            else (c.seenWord h q).dat.extractLsb' (8 * i) 8)
end

