-- ==== Sys2Proof/Laws/State.lean ====
section
/-! SUPPORT. One lemma per field of the module for each plain update: a hart, a register, the counter of free values, a
message put on a link; and what settling (R681, R699) leaves alone. -/
namespace Sys2Proof.Machine

/-- A fold keeps what each of its steps keeps. -/
theorem foldl_keeps {α β γ : Type} (p : β → γ) (f : β → α → β) (hf : ∀ b a, p (f b a) = p b) (l : List α) (b : β) :
    p (l.foldl f b) = p b := by
  induction l generalizing b with
  | nil => rfl
  | cons a l ih => rw [List.foldl_cons, ih, hf]

@[simp] theorem Chip.setHart_mode (c : Chip) (h : Hart) (x : HartSt) : (c.setHart h x).mode = c.mode := rfl
@[simp] theorem Chip.modHart_mode (c : Chip) (h : Hart) (g : HartSt → HartSt) : (c.modHart h g).mode = c.mode := rfl
@[simp] theorem Chip.setReg_mode (c : Chip) (o : Nat) (v : Datum) : (c.setReg o v).mode = c.mode := rfl
@[simp] theorem Chip.setRf_mode (c : Chip) (o hi lo v : Nat) : (c.setRf o hi lo v).mode = c.mode := rfl
@[simp] theorem Chip.tick_mode (c : Chip) : c.tick.mode = c.mode := rfl
@[simp] theorem Chip.emit_mode (c : Chip) (o : Out) : (c.emit o).mode = c.mode := rfl
theorem Chip.msix_mode (c : Chip) (v : Nat) : (c.msix v).mode = c.mode := by simp only [Chip.msix]; split <;> rfl
@[simp] theorem Chip.settle_mode (c : Chip) : c.settle.mode = c.mode := by
  unfold Chip.settle Chip.settlePins Chip.settleIrq
  exact foldl_keeps Chip.mode _ (fun b a => by split <;> first | rfl | exact Chip.msix_mode _ _) _ _
@[simp] theorem Chip.setHart_prev (c : Chip) (h : Hart) (x : HartSt) : (c.setHart h x).prev = c.prev := rfl
@[simp] theorem Chip.modHart_prev (c : Chip) (h : Hart) (g : HartSt → HartSt) : (c.modHart h g).prev = c.prev := rfl
@[simp] theorem Chip.setReg_prev (c : Chip) (o : Nat) (v : Datum) : (c.setReg o v).prev = c.prev := rfl
@[simp] theorem Chip.setRf_prev (c : Chip) (o hi lo v : Nat) : (c.setRf o hi lo v).prev = c.prev := rfl
@[simp] theorem Chip.tick_prev (c : Chip) : c.tick.prev = c.prev := rfl
@[simp] theorem Chip.emit_prev (c : Chip) (o : Out) : (c.emit o).prev = c.prev := rfl
theorem Chip.msix_prev (c : Chip) (v : Nat) : (c.msix v).prev = c.prev := by simp only [Chip.msix]; split <;> rfl
@[simp] theorem Chip.settle_prev (c : Chip) : c.settle.prev = c.prev := by
  unfold Chip.settle Chip.settlePins Chip.settleIrq
  exact foldl_keeps Chip.prev _ (fun b a => by split <;> first | rfl | exact Chip.msix_prev _ _) _ _
@[simp] theorem Chip.setHart_entered (c : Chip) (h : Hart) (x : HartSt) : (c.setHart h x).entered = c.entered := rfl
@[simp] theorem Chip.modHart_entered (c : Chip) (h : Hart) (g : HartSt → HartSt) : (c.modHart h g).entered = c.entered := rfl
@[simp] theorem Chip.setReg_entered (c : Chip) (o : Nat) (v : Datum) : (c.setReg o v).entered = c.entered := rfl
@[simp] theorem Chip.setRf_entered (c : Chip) (o hi lo v : Nat) : (c.setRf o hi lo v).entered = c.entered := rfl
@[simp] theorem Chip.tick_entered (c : Chip) : c.tick.entered = c.entered := rfl
@[simp] theorem Chip.emit_entered (c : Chip) (o : Out) : (c.emit o).entered = c.entered := rfl
theorem Chip.msix_entered (c : Chip) (v : Nat) : (c.msix v).entered = c.entered := by simp only [Chip.msix]; split <;> rfl
@[simp] theorem Chip.settle_entered (c : Chip) : c.settle.entered = c.entered := by
  unfold Chip.settle Chip.settlePins Chip.settleIrq
  exact foldl_keeps Chip.entered _ (fun b a => by split <;> first | rfl | exact Chip.msix_entered _ _) _ _
@[simp] theorem Chip.setHart_faulted (c : Chip) (h : Hart) (x : HartSt) : (c.setHart h x).faulted = c.faulted := rfl
@[simp] theorem Chip.modHart_faulted (c : Chip) (h : Hart) (g : HartSt → HartSt) : (c.modHart h g).faulted = c.faulted := rfl
@[simp] theorem Chip.setReg_faulted (c : Chip) (o : Nat) (v : Datum) : (c.setReg o v).faulted = c.faulted := rfl
@[simp] theorem Chip.setRf_faulted (c : Chip) (o hi lo v : Nat) : (c.setRf o hi lo v).faulted = c.faulted := rfl
@[simp] theorem Chip.tick_faulted (c : Chip) : c.tick.faulted = c.faulted := rfl
@[simp] theorem Chip.emit_faulted (c : Chip) (o : Out) : (c.emit o).faulted = c.faulted := rfl
theorem Chip.msix_faulted (c : Chip) (v : Nat) : (c.msix v).faulted = c.faulted := by simp only [Chip.msix]; split <;> rfl
@[simp] theorem Chip.settle_faulted (c : Chip) : c.settle.faulted = c.faulted := by
  unfold Chip.settle Chip.settlePins Chip.settleIrq
  exact foldl_keeps Chip.faulted _ (fun b a => by split <;> first | rfl | exact Chip.msix_faulted _ _) _ _
@[simp] theorem Chip.setHart_cap128 (c : Chip) (h : Hart) (x : HartSt) : (c.setHart h x).cap128 = c.cap128 := rfl
@[simp] theorem Chip.modHart_cap128 (c : Chip) (h : Hart) (g : HartSt → HartSt) : (c.modHart h g).cap128 = c.cap128 := rfl
@[simp] theorem Chip.setReg_cap128 (c : Chip) (o : Nat) (v : Datum) : (c.setReg o v).cap128 = c.cap128 := rfl
@[simp] theorem Chip.setRf_cap128 (c : Chip) (o hi lo v : Nat) : (c.setRf o hi lo v).cap128 = c.cap128 := rfl
@[simp] theorem Chip.tick_cap128 (c : Chip) : c.tick.cap128 = c.cap128 := rfl
@[simp] theorem Chip.emit_cap128 (c : Chip) (o : Out) : (c.emit o).cap128 = c.cap128 := rfl
theorem Chip.msix_cap128 (c : Chip) (v : Nat) : (c.msix v).cap128 = c.cap128 := by simp only [Chip.msix]; split <;> rfl
@[simp] theorem Chip.settle_cap128 (c : Chip) : c.settle.cap128 = c.cap128 := by
  unfold Chip.settle Chip.settlePins Chip.settleIrq
  exact foldl_keeps Chip.cap128 _ (fun b a => by split <;> first | rfl | exact Chip.msix_cap128 _ _) _ _
@[simp] theorem Chip.setHart_lidB (c : Chip) (h : Hart) (x : HartSt) : (c.setHart h x).lidB = c.lidB := rfl
@[simp] theorem Chip.modHart_lidB (c : Chip) (h : Hart) (g : HartSt → HartSt) : (c.modHart h g).lidB = c.lidB := rfl
@[simp] theorem Chip.setReg_lidB (c : Chip) (o : Nat) (v : Datum) : (c.setReg o v).lidB = c.lidB := rfl
@[simp] theorem Chip.setRf_lidB (c : Chip) (o hi lo v : Nat) : (c.setRf o hi lo v).lidB = c.lidB := rfl
@[simp] theorem Chip.tick_lidB (c : Chip) : c.tick.lidB = c.lidB := rfl
@[simp] theorem Chip.emit_lidB (c : Chip) (o : Out) : (c.emit o).lidB = c.lidB := rfl
theorem Chip.msix_lidB (c : Chip) (v : Nat) : (c.msix v).lidB = c.lidB := by simp only [Chip.msix]; split <;> rfl
@[simp] theorem Chip.settle_lidB (c : Chip) : c.settle.lidB = c.lidB := by
  unfold Chip.settle Chip.settlePins Chip.settleIrq
  exact foldl_keeps Chip.lidB _ (fun b a => by split <;> first | rfl | exact Chip.msix_lidB _ _) _ _
@[simp] theorem Chip.setReg_harts (c : Chip) (o : Nat) (v : Datum) : (c.setReg o v).harts = c.harts := rfl
@[simp] theorem Chip.setRf_harts (c : Chip) (o hi lo v : Nat) : (c.setRf o hi lo v).harts = c.harts := rfl
@[simp] theorem Chip.tick_harts (c : Chip) : c.tick.harts = c.harts := rfl
@[simp] theorem Chip.emit_harts (c : Chip) (o : Out) : (c.emit o).harts = c.harts := rfl
theorem Chip.msix_harts (c : Chip) (v : Nat) : (c.msix v).harts = c.harts := by simp only [Chip.msix]; split <;> rfl
@[simp] theorem Chip.settle_harts (c : Chip) : c.settle.harts = c.harts := by
  unfold Chip.settle Chip.settlePins Chip.settleIrq
  exact foldl_keeps Chip.harts _ (fun b a => by split <;> first | rfl | exact Chip.msix_harts _ _) _ _
@[simp] theorem Chip.setHart_mem (c : Chip) (h : Hart) (x : HartSt) : (c.setHart h x).mem = c.mem := rfl
@[simp] theorem Chip.modHart_mem (c : Chip) (h : Hart) (g : HartSt → HartSt) : (c.modHart h g).mem = c.mem := rfl
@[simp] theorem Chip.setReg_mem (c : Chip) (o : Nat) (v : Datum) : (c.setReg o v).mem = c.mem := rfl
@[simp] theorem Chip.setRf_mem (c : Chip) (o hi lo v : Nat) : (c.setRf o hi lo v).mem = c.mem := rfl
@[simp] theorem Chip.tick_mem (c : Chip) : c.tick.mem = c.mem := rfl
@[simp] theorem Chip.emit_mem (c : Chip) (o : Out) : (c.emit o).mem = c.mem := rfl
theorem Chip.msix_mem (c : Chip) (v : Nat) : (c.msix v).mem = c.mem := by simp only [Chip.msix]; split <;> rfl
@[simp] theorem Chip.settle_mem (c : Chip) : c.settle.mem = c.mem := by
  unfold Chip.settle Chip.settlePins Chip.settleIrq
  exact foldl_keeps Chip.mem _ (fun b a => by split <;> first | rfl | exact Chip.msix_mem _ _) _ _
@[simp] theorem Chip.setHart_sb (c : Chip) (h : Hart) (x : HartSt) : (c.setHart h x).sb = c.sb := rfl
@[simp] theorem Chip.modHart_sb (c : Chip) (h : Hart) (g : HartSt → HartSt) : (c.modHart h g).sb = c.sb := rfl
@[simp] theorem Chip.setReg_sb (c : Chip) (o : Nat) (v : Datum) : (c.setReg o v).sb = c.sb := rfl
@[simp] theorem Chip.setRf_sb (c : Chip) (o hi lo v : Nat) : (c.setRf o hi lo v).sb = c.sb := rfl
@[simp] theorem Chip.tick_sb (c : Chip) : c.tick.sb = c.sb := rfl
@[simp] theorem Chip.emit_sb (c : Chip) (o : Out) : (c.emit o).sb = c.sb := rfl
theorem Chip.msix_sb (c : Chip) (v : Nat) : (c.msix v).sb = c.sb := by simp only [Chip.msix]; split <;> rfl
@[simp] theorem Chip.settle_sb (c : Chip) : c.settle.sb = c.sb := by
  unfold Chip.settle Chip.settlePins Chip.settleIrq
  exact foldl_keeps Chip.sb _ (fun b a => by split <;> first | rfl | exact Chip.msix_sb _ _) _ _
@[simp] theorem Chip.setHart_tlb (c : Chip) (h : Hart) (x : HartSt) : (c.setHart h x).tlb = c.tlb := rfl
@[simp] theorem Chip.modHart_tlb (c : Chip) (h : Hart) (g : HartSt → HartSt) : (c.modHart h g).tlb = c.tlb := rfl
@[simp] theorem Chip.setReg_tlb (c : Chip) (o : Nat) (v : Datum) : (c.setReg o v).tlb = c.tlb := rfl
@[simp] theorem Chip.setRf_tlb (c : Chip) (o hi lo v : Nat) : (c.setRf o hi lo v).tlb = c.tlb := rfl
@[simp] theorem Chip.tick_tlb (c : Chip) : c.tick.tlb = c.tlb := rfl
@[simp] theorem Chip.emit_tlb (c : Chip) (o : Out) : (c.emit o).tlb = c.tlb := rfl
theorem Chip.msix_tlb (c : Chip) (v : Nat) : (c.msix v).tlb = c.tlb := by simp only [Chip.msix]; split <;> rfl
@[simp] theorem Chip.settle_tlb (c : Chip) : c.settle.tlb = c.tlb := by
  unfold Chip.settle Chip.settlePins Chip.settleIrq
  exact foldl_keeps Chip.tlb _ (fun b a => by split <;> first | rfl | exact Chip.msix_tlb _ _) _ _
@[simp] theorem Chip.setHart_latent (c : Chip) (h : Hart) (x : HartSt) : (c.setHart h x).latent = c.latent := rfl
@[simp] theorem Chip.setHart_caches (c : Chip) (h : Hart) (x : HartSt) : (c.setHart h x).caches = c.caches := rfl
@[simp] theorem Chip.setHart_tables (c : Chip) (h : Hart) (x : HartSt) : (c.setHart h x).tables = c.tables := rfl
@[simp] theorem Chip.setHart_faulty (c : Chip) (h : Hart) (x : HartSt) : (c.setHart h x).faulty = c.faulty := rfl
@[simp] theorem Chip.setHart_unitWords (c : Chip) (h : Hart) (x : HartSt) : (c.setHart h x).unitWords = c.unitWords := rfl
@[simp] theorem Chip.setHart_injections (c : Chip) (h : Hart) (x : HartSt) : (c.setHart h x).injections = c.injections := rfl
@[simp] theorem Chip.setHart_acted (c : Chip) (h : Hart) (x : HartSt) : (c.setHart h x).acted = c.acted := rfl
@[simp] theorem Chip.modHart_latent (c : Chip) (h : Hart) (g : HartSt → HartSt) : (c.modHart h g).latent = c.latent := rfl
@[simp] theorem Chip.modHart_caches (c : Chip) (h : Hart) (g : HartSt → HartSt) : (c.modHart h g).caches = c.caches := rfl
@[simp] theorem Chip.modHart_tables (c : Chip) (h : Hart) (g : HartSt → HartSt) : (c.modHart h g).tables = c.tables := rfl
@[simp] theorem Chip.modHart_faulty (c : Chip) (h : Hart) (g : HartSt → HartSt) : (c.modHart h g).faulty = c.faulty := rfl
@[simp] theorem Chip.modHart_unitWords (c : Chip) (h : Hart) (g : HartSt → HartSt) : (c.modHart h g).unitWords = c.unitWords := rfl
@[simp] theorem Chip.modHart_injections (c : Chip) (h : Hart) (g : HartSt → HartSt) : (c.modHart h g).injections = c.injections := rfl
@[simp] theorem Chip.modHart_acted (c : Chip) (h : Hart) (g : HartSt → HartSt) : (c.modHart h g).acted = c.acted := rfl
@[simp] theorem Chip.setReg_latent (c : Chip) (o : Nat) (v : Datum) : (c.setReg o v).latent = c.latent := rfl
@[simp] theorem Chip.setReg_caches (c : Chip) (o : Nat) (v : Datum) : (c.setReg o v).caches = c.caches := rfl
@[simp] theorem Chip.setReg_tables (c : Chip) (o : Nat) (v : Datum) : (c.setReg o v).tables = c.tables := rfl
@[simp] theorem Chip.setReg_faulty (c : Chip) (o : Nat) (v : Datum) : (c.setReg o v).faulty = c.faulty := rfl
@[simp] theorem Chip.setReg_unitWords (c : Chip) (o : Nat) (v : Datum) : (c.setReg o v).unitWords = c.unitWords := rfl
@[simp] theorem Chip.setReg_injections (c : Chip) (o : Nat) (v : Datum) : (c.setReg o v).injections = c.injections := rfl
@[simp] theorem Chip.setReg_acted (c : Chip) (o : Nat) (v : Datum) : (c.setReg o v).acted = c.acted := rfl
@[simp] theorem Chip.setRf_latent (c : Chip) (o hi lo v : Nat) : (c.setRf o hi lo v).latent = c.latent := rfl
@[simp] theorem Chip.setRf_caches (c : Chip) (o hi lo v : Nat) : (c.setRf o hi lo v).caches = c.caches := rfl
@[simp] theorem Chip.setRf_tables (c : Chip) (o hi lo v : Nat) : (c.setRf o hi lo v).tables = c.tables := rfl
@[simp] theorem Chip.setRf_faulty (c : Chip) (o hi lo v : Nat) : (c.setRf o hi lo v).faulty = c.faulty := rfl
@[simp] theorem Chip.setRf_unitWords (c : Chip) (o hi lo v : Nat) : (c.setRf o hi lo v).unitWords = c.unitWords := rfl
@[simp] theorem Chip.setRf_injections (c : Chip) (o hi lo v : Nat) : (c.setRf o hi lo v).injections = c.injections := rfl
@[simp] theorem Chip.setRf_acted (c : Chip) (o hi lo v : Nat) : (c.setRf o hi lo v).acted = c.acted := rfl
@[simp] theorem Chip.tick_latent (c : Chip) : c.tick.latent = c.latent := rfl
@[simp] theorem Chip.tick_caches (c : Chip) : c.tick.caches = c.caches := rfl
@[simp] theorem Chip.tick_tables (c : Chip) : c.tick.tables = c.tables := rfl
@[simp] theorem Chip.tick_faulty (c : Chip) : c.tick.faulty = c.faulty := rfl
@[simp] theorem Chip.tick_unitWords (c : Chip) : c.tick.unitWords = c.unitWords := rfl
@[simp] theorem Chip.tick_injections (c : Chip) : c.tick.injections = c.injections := rfl
@[simp] theorem Chip.tick_acted (c : Chip) : c.tick.acted = c.acted := rfl
@[simp] theorem Chip.emit_latent (c : Chip) (o : Out) : (c.emit o).latent = c.latent := rfl
@[simp] theorem Chip.emit_caches (c : Chip) (o : Out) : (c.emit o).caches = c.caches := rfl
@[simp] theorem Chip.emit_tables (c : Chip) (o : Out) : (c.emit o).tables = c.tables := rfl
@[simp] theorem Chip.emit_faulty (c : Chip) (o : Out) : (c.emit o).faulty = c.faulty := rfl
@[simp] theorem Chip.emit_unitWords (c : Chip) (o : Out) : (c.emit o).unitWords = c.unitWords := rfl
@[simp] theorem Chip.emit_injections (c : Chip) (o : Out) : (c.emit o).injections = c.injections := rfl
@[simp] theorem Chip.emit_acted (c : Chip) (o : Out) : (c.emit o).acted = c.acted := rfl
theorem Chip.msix_latent (c : Chip) (v : Nat) : (c.msix v).latent = c.latent := by simp only [Chip.msix]; split <;> rfl
theorem Chip.msix_caches (c : Chip) (v : Nat) : (c.msix v).caches = c.caches := by simp only [Chip.msix]; split <;> rfl
theorem Chip.msix_tables (c : Chip) (v : Nat) : (c.msix v).tables = c.tables := by simp only [Chip.msix]; split <;> rfl
theorem Chip.msix_faulty (c : Chip) (v : Nat) : (c.msix v).faulty = c.faulty := by simp only [Chip.msix]; split <;> rfl
theorem Chip.msix_unitWords (c : Chip) (v : Nat) : (c.msix v).unitWords = c.unitWords := by simp only [Chip.msix]; split <;> rfl
theorem Chip.msix_injections (c : Chip) (v : Nat) : (c.msix v).injections = c.injections := by simp only [Chip.msix]; split <;> rfl
theorem Chip.msix_acted (c : Chip) (v : Nat) : (c.msix v).acted = c.acted := by simp only [Chip.msix]; split <;> rfl
@[simp] theorem Chip.settle_latent (c : Chip) : c.settle.latent = c.latent := by
  unfold Chip.settle Chip.settlePins Chip.settleIrq
  exact foldl_keeps Chip.latent _ (fun b a => by split <;> first | rfl | exact Chip.msix_latent _ _) _ _
@[simp] theorem Chip.settle_caches (c : Chip) : c.settle.caches = c.caches := by
  unfold Chip.settle Chip.settlePins Chip.settleIrq
  exact foldl_keeps Chip.caches _ (fun b a => by split <;> first | rfl | exact Chip.msix_caches _ _) _ _
@[simp] theorem Chip.settle_tables (c : Chip) : c.settle.tables = c.tables := by
  unfold Chip.settle Chip.settlePins Chip.settleIrq
  exact foldl_keeps Chip.tables _ (fun b a => by split <;> first | rfl | exact Chip.msix_tables _ _) _ _
@[simp] theorem Chip.settle_faulty (c : Chip) : c.settle.faulty = c.faulty := by
  unfold Chip.settle Chip.settlePins Chip.settleIrq
  exact foldl_keeps Chip.faulty _ (fun b a => by split <;> first | rfl | exact Chip.msix_faulty _ _) _ _
@[simp] theorem Chip.settle_unitWords (c : Chip) : c.settle.unitWords = c.unitWords := by
  unfold Chip.settle Chip.settlePins Chip.settleIrq
  exact foldl_keeps Chip.unitWords _ (fun b a => by split <;> first | rfl | exact Chip.msix_unitWords _ _) _ _
@[simp] theorem Chip.settle_injections (c : Chip) : c.settle.injections = c.injections := by
  unfold Chip.settle Chip.settlePins Chip.settleIrq
  exact foldl_keeps Chip.injections _ (fun b a => by split <;> first | rfl | exact Chip.msix_injections _ _) _ _
@[simp] theorem Chip.settle_acted (c : Chip) : c.settle.acted = c.acted := by
  unfold Chip.settle Chip.settlePins Chip.settleIrq
  exact foldl_keeps Chip.acted _ (fun b a => by split <;> first | rfl | exact Chip.msix_acted _ _) _ _
@[simp] theorem Chip.setHart_ctlFailed (c : Chip) (h : Hart) (x : HartSt) : (c.setHart h x).ctlFailed = c.ctlFailed := rfl
@[simp] theorem Chip.modHart_ctlFailed (c : Chip) (h : Hart) (g : HartSt → HartSt) : (c.modHart h g).ctlFailed = c.ctlFailed := rfl
@[simp] theorem Chip.setReg_ctlFailed (c : Chip) (o : Nat) (v : Datum) : (c.setReg o v).ctlFailed = c.ctlFailed := rfl
@[simp] theorem Chip.setRf_ctlFailed (c : Chip) (o hi lo v : Nat) : (c.setRf o hi lo v).ctlFailed = c.ctlFailed := rfl
@[simp] theorem Chip.tick_ctlFailed (c : Chip) : c.tick.ctlFailed = c.ctlFailed := rfl
@[simp] theorem Chip.emit_ctlFailed (c : Chip) (o : Out) : (c.emit o).ctlFailed = c.ctlFailed := rfl
theorem Chip.msix_ctlFailed (c : Chip) (v : Nat) : (c.msix v).ctlFailed = c.ctlFailed := by simp only [Chip.msix]; split <;> rfl
@[simp] theorem Chip.settle_ctlFailed (c : Chip) : c.settle.ctlFailed = c.ctlFailed := by
  unfold Chip.settle Chip.settlePins Chip.settleIrq
  exact foldl_keeps Chip.ctlFailed _ (fun b a => by split <;> first | rfl | exact Chip.msix_ctlFailed _ _) _ _
@[simp] theorem Chip.setHart_portFailed (c : Chip) (h : Hart) (x : HartSt) : (c.setHart h x).portFailed = c.portFailed := rfl
@[simp] theorem Chip.modHart_portFailed (c : Chip) (h : Hart) (g : HartSt → HartSt) : (c.modHart h g).portFailed = c.portFailed := rfl
@[simp] theorem Chip.setReg_portFailed (c : Chip) (o : Nat) (v : Datum) : (c.setReg o v).portFailed = c.portFailed := rfl
@[simp] theorem Chip.setRf_portFailed (c : Chip) (o hi lo v : Nat) : (c.setRf o hi lo v).portFailed = c.portFailed := rfl
@[simp] theorem Chip.tick_portFailed (c : Chip) : c.tick.portFailed = c.portFailed := rfl
@[simp] theorem Chip.emit_portFailed (c : Chip) (o : Out) : (c.emit o).portFailed = c.portFailed := rfl
theorem Chip.msix_portFailed (c : Chip) (v : Nat) : (c.msix v).portFailed = c.portFailed := by simp only [Chip.msix]; split <;> rfl
@[simp] theorem Chip.settle_portFailed (c : Chip) : c.settle.portFailed = c.portFailed := by
  unfold Chip.settle Chip.settlePins Chip.settleIrq
  exact foldl_keeps Chip.portFailed _ (fun b a => by split <;> first | rfl | exact Chip.msix_portFailed _ _) _ _
@[simp] theorem Chip.setHart_coresLost (c : Chip) (h : Hart) (x : HartSt) : (c.setHart h x).coresLost = c.coresLost := rfl
@[simp] theorem Chip.modHart_coresLost (c : Chip) (h : Hart) (g : HartSt → HartSt) : (c.modHart h g).coresLost = c.coresLost := rfl
@[simp] theorem Chip.setReg_coresLost (c : Chip) (o : Nat) (v : Datum) : (c.setReg o v).coresLost = c.coresLost := rfl
@[simp] theorem Chip.setRf_coresLost (c : Chip) (o hi lo v : Nat) : (c.setRf o hi lo v).coresLost = c.coresLost := rfl
@[simp] theorem Chip.tick_coresLost (c : Chip) : c.tick.coresLost = c.coresLost := rfl
@[simp] theorem Chip.emit_coresLost (c : Chip) (o : Out) : (c.emit o).coresLost = c.coresLost := rfl
theorem Chip.msix_coresLost (c : Chip) (v : Nat) : (c.msix v).coresLost = c.coresLost := by simp only [Chip.msix]; split <;> rfl
@[simp] theorem Chip.settle_coresLost (c : Chip) : c.settle.coresLost = c.coresLost := by
  unfold Chip.settle Chip.settlePins Chip.settleIrq
  exact foldl_keeps Chip.coresLost _ (fun b a => by split <;> first | rfl | exact Chip.msix_coresLost _ _) _ _
@[simp] theorem Chip.setHart_spared (c : Chip) (h : Hart) (x : HartSt) : (c.setHart h x).spared = c.spared := rfl
@[simp] theorem Chip.modHart_spared (c : Chip) (h : Hart) (g : HartSt → HartSt) : (c.modHart h g).spared = c.spared := rfl
@[simp] theorem Chip.setReg_spared (c : Chip) (o : Nat) (v : Datum) : (c.setReg o v).spared = c.spared := rfl
@[simp] theorem Chip.setRf_spared (c : Chip) (o hi lo v : Nat) : (c.setRf o hi lo v).spared = c.spared := rfl
@[simp] theorem Chip.tick_spared (c : Chip) : c.tick.spared = c.spared := rfl
@[simp] theorem Chip.emit_spared (c : Chip) (o : Out) : (c.emit o).spared = c.spared := rfl
theorem Chip.msix_spared (c : Chip) (v : Nat) : (c.msix v).spared = c.spared := by simp only [Chip.msix]; split <;> rfl
@[simp] theorem Chip.settle_spared (c : Chip) : c.settle.spared = c.spared := by
  unfold Chip.settle Chip.settlePins Chip.settleIrq
  exact foldl_keeps Chip.spared _ (fun b a => by split <;> first | rfl | exact Chip.msix_spared _ _) _ _
@[simp] theorem Chip.setHart_pages (c : Chip) (h : Hart) (x : HartSt) : (c.setHart h x).pages = c.pages := rfl
@[simp] theorem Chip.modHart_pages (c : Chip) (h : Hart) (g : HartSt → HartSt) : (c.modHart h g).pages = c.pages := rfl
@[simp] theorem Chip.tick_pages (c : Chip) : c.tick.pages = c.pages := rfl
@[simp] theorem Chip.emit_pages (c : Chip) (o : Out) : (c.emit o).pages = c.pages := rfl
theorem Chip.msix_pages (c : Chip) (v : Nat) : (c.msix v).pages = c.pages := by simp only [Chip.msix]; split <;> rfl
@[simp] theorem Chip.settle_pages (c : Chip) : c.settle.pages = c.pages := by
  unfold Chip.settle Chip.settlePins Chip.settleIrq
  exact foldl_keeps Chip.pages _ (fun b a => by split <;> first | rfl | exact Chip.msix_pages _ _) _ _
@[simp] theorem Chip.setHart_asserted (c : Chip) (h : Hart) (x : HartSt) : (c.setHart h x).asserted = c.asserted := rfl
@[simp] theorem Chip.modHart_asserted (c : Chip) (h : Hart) (g : HartSt → HartSt) : (c.modHart h g).asserted = c.asserted := rfl
@[simp] theorem Chip.setReg_asserted (c : Chip) (o : Nat) (v : Datum) : (c.setReg o v).asserted = c.asserted := rfl
@[simp] theorem Chip.setRf_asserted (c : Chip) (o hi lo v : Nat) : (c.setRf o hi lo v).asserted = c.asserted := rfl
@[simp] theorem Chip.tick_asserted (c : Chip) : c.tick.asserted = c.asserted := rfl
@[simp] theorem Chip.emit_asserted (c : Chip) (o : Out) : (c.emit o).asserted = c.asserted := rfl
theorem Chip.msix_asserted (c : Chip) (v : Nat) : (c.msix v).asserted = c.asserted := by simp only [Chip.msix]; split <;> rfl
@[simp] theorem Chip.setHart_fc (c : Chip) (h : Hart) (x : HartSt) : (c.setHart h x).fc = c.fc := rfl
@[simp] theorem Chip.modHart_fc (c : Chip) (h : Hart) (g : HartSt → HartSt) : (c.modHart h g).fc = c.fc := rfl
@[simp] theorem Chip.setReg_fc (c : Chip) (o : Nat) (v : Datum) : (c.setReg o v).fc = c.fc := rfl
@[simp] theorem Chip.setRf_fc (c : Chip) (o hi lo v : Nat) : (c.setRf o hi lo v).fc = c.fc := rfl
@[simp] theorem Chip.tick_fc (c : Chip) : c.tick.fc = c.fc := rfl
@[simp] theorem Chip.emit_fc (c : Chip) (o : Out) : (c.emit o).fc = c.fc := rfl
theorem Chip.msix_fc (c : Chip) (v : Nat) : (c.msix v).fc = c.fc := by simp only [Chip.msix]; split <;> rfl
@[simp] theorem Chip.settle_fc (c : Chip) : c.settle.fc = c.fc := by
  unfold Chip.settle Chip.settlePins Chip.settleIrq
  exact foldl_keeps Chip.fc _ (fun b a => by split <;> first | rfl | exact Chip.msix_fc _ _) _ _
@[simp] theorem Chip.setHart_patch (c : Chip) (h : Hart) (x : HartSt) : (c.setHart h x).patch = c.patch := rfl
@[simp] theorem Chip.modHart_patch (c : Chip) (h : Hart) (g : HartSt → HartSt) : (c.modHart h g).patch = c.patch := rfl
@[simp] theorem Chip.setReg_patch (c : Chip) (o : Nat) (v : Datum) : (c.setReg o v).patch = c.patch := rfl
@[simp] theorem Chip.setRf_patch (c : Chip) (o hi lo v : Nat) : (c.setRf o hi lo v).patch = c.patch := rfl
@[simp] theorem Chip.tick_patch (c : Chip) : c.tick.patch = c.patch := rfl
@[simp] theorem Chip.emit_patch (c : Chip) (o : Out) : (c.emit o).patch = c.patch := rfl
theorem Chip.msix_patch (c : Chip) (v : Nat) : (c.msix v).patch = c.patch := by simp only [Chip.msix]; split <;> rfl
@[simp] theorem Chip.settle_patch (c : Chip) : c.settle.patch = c.patch := by
  unfold Chip.settle Chip.settlePins Chip.settleIrq
  exact foldl_keeps Chip.patch _ (fun b a => by split <;> first | rfl | exact Chip.msix_patch _ _) _ _
@[simp] theorem Chip.setHart_matchTable (c : Chip) (h : Hart) (x : HartSt) : (c.setHart h x).matchTable = c.matchTable := rfl
@[simp] theorem Chip.modHart_matchTable (c : Chip) (h : Hart) (g : HartSt → HartSt) : (c.modHart h g).matchTable = c.matchTable := rfl
@[simp] theorem Chip.setReg_matchTable (c : Chip) (o : Nat) (v : Datum) : (c.setReg o v).matchTable = c.matchTable := rfl
@[simp] theorem Chip.setRf_matchTable (c : Chip) (o hi lo v : Nat) : (c.setRf o hi lo v).matchTable = c.matchTable := rfl
@[simp] theorem Chip.tick_matchTable (c : Chip) : c.tick.matchTable = c.matchTable := rfl
@[simp] theorem Chip.emit_matchTable (c : Chip) (o : Out) : (c.emit o).matchTable = c.matchTable := rfl
theorem Chip.msix_matchTable (c : Chip) (v : Nat) : (c.msix v).matchTable = c.matchTable := by simp only [Chip.msix]; split <;> rfl
@[simp] theorem Chip.settle_matchTable (c : Chip) : c.settle.matchTable = c.matchTable := by
  unfold Chip.settle Chip.settlePins Chip.settleIrq
  exact foldl_keeps Chip.matchTable _ (fun b a => by split <;> first | rfl | exact Chip.msix_matchTable _ _) _ _
@[simp] theorem Chip.setHart_blend (c : Chip) (h : Hart) (x : HartSt) : (c.setHart h x).blend = c.blend := rfl
@[simp] theorem Chip.modHart_blend (c : Chip) (h : Hart) (g : HartSt → HartSt) : (c.modHart h g).blend = c.blend := rfl
@[simp] theorem Chip.setReg_blend (c : Chip) (o : Nat) (v : Datum) : (c.setReg o v).blend = c.blend := rfl
@[simp] theorem Chip.setRf_blend (c : Chip) (o hi lo v : Nat) : (c.setRf o hi lo v).blend = c.blend := rfl
@[simp] theorem Chip.tick_blend (c : Chip) : c.tick.blend = c.blend := rfl
@[simp] theorem Chip.emit_blend (c : Chip) (o : Out) : (c.emit o).blend = c.blend := rfl
theorem Chip.msix_blend (c : Chip) (v : Nat) : (c.msix v).blend = c.blend := by simp only [Chip.msix]; split <;> rfl
@[simp] theorem Chip.settle_blend (c : Chip) : c.settle.blend = c.blend := by
  unfold Chip.settle Chip.settlePins Chip.settleIrq
  exact foldl_keeps Chip.blend _ (fun b a => by split <;> first | rfl | exact Chip.msix_blend _ _) _ _
@[simp] theorem Chip.setHart_blendVmid (c : Chip) (h : Hart) (x : HartSt) : (c.setHart h x).blendVmid = c.blendVmid := rfl
@[simp] theorem Chip.modHart_blendVmid (c : Chip) (h : Hart) (g : HartSt → HartSt) : (c.modHart h g).blendVmid = c.blendVmid := rfl
@[simp] theorem Chip.setReg_blendVmid (c : Chip) (o : Nat) (v : Datum) : (c.setReg o v).blendVmid = c.blendVmid := rfl
@[simp] theorem Chip.setRf_blendVmid (c : Chip) (o hi lo v : Nat) : (c.setRf o hi lo v).blendVmid = c.blendVmid := rfl
@[simp] theorem Chip.tick_blendVmid (c : Chip) : c.tick.blendVmid = c.blendVmid := rfl
@[simp] theorem Chip.emit_blendVmid (c : Chip) (o : Out) : (c.emit o).blendVmid = c.blendVmid := rfl
theorem Chip.msix_blendVmid (c : Chip) (v : Nat) : (c.msix v).blendVmid = c.blendVmid := by simp only [Chip.msix]; split <;> rfl
@[simp] theorem Chip.settle_blendVmid (c : Chip) : c.settle.blendVmid = c.blendVmid := by
  unfold Chip.settle Chip.settlePins Chip.settleIrq
  exact foldl_keeps Chip.blendVmid _ (fun b a => by split <;> first | rfl | exact Chip.msix_blendVmid _ _) _ _
@[simp] theorem Chip.setHart_blendBad (c : Chip) (h : Hart) (x : HartSt) : (c.setHart h x).blendBad = c.blendBad := rfl
@[simp] theorem Chip.modHart_blendBad (c : Chip) (h : Hart) (g : HartSt → HartSt) : (c.modHart h g).blendBad = c.blendBad := rfl
@[simp] theorem Chip.setReg_blendBad (c : Chip) (o : Nat) (v : Datum) : (c.setReg o v).blendBad = c.blendBad := rfl
@[simp] theorem Chip.setRf_blendBad (c : Chip) (o hi lo v : Nat) : (c.setRf o hi lo v).blendBad = c.blendBad := rfl
@[simp] theorem Chip.tick_blendBad (c : Chip) : c.tick.blendBad = c.blendBad := rfl
@[simp] theorem Chip.emit_blendBad (c : Chip) (o : Out) : (c.emit o).blendBad = c.blendBad := rfl
theorem Chip.msix_blendBad (c : Chip) (v : Nat) : (c.msix v).blendBad = c.blendBad := by simp only [Chip.msix]; split <;> rfl
@[simp] theorem Chip.settle_blendBad (c : Chip) : c.settle.blendBad = c.blendBad := by
  unfold Chip.settle Chip.settlePins Chip.settleIrq
  exact foldl_keeps Chip.blendBad _ (fun b a => by split <;> first | rfl | exact Chip.msix_blendBad _ _) _ _
@[simp] theorem Chip.setHart_xfers (c : Chip) (h : Hart) (x : HartSt) : (c.setHart h x).xfers = c.xfers := rfl
@[simp] theorem Chip.modHart_xfers (c : Chip) (h : Hart) (g : HartSt → HartSt) : (c.modHart h g).xfers = c.xfers := rfl
@[simp] theorem Chip.setReg_xfers (c : Chip) (o : Nat) (v : Datum) : (c.setReg o v).xfers = c.xfers := rfl
@[simp] theorem Chip.setRf_xfers (c : Chip) (o hi lo v : Nat) : (c.setRf o hi lo v).xfers = c.xfers := rfl
@[simp] theorem Chip.tick_xfers (c : Chip) : c.tick.xfers = c.xfers := rfl
@[simp] theorem Chip.emit_xfers (c : Chip) (o : Out) : (c.emit o).xfers = c.xfers := rfl
theorem Chip.msix_xfers (c : Chip) (v : Nat) : (c.msix v).xfers = c.xfers := by simp only [Chip.msix]; split <;> rfl
@[simp] theorem Chip.settle_xfers (c : Chip) : c.settle.xfers = c.xfers := by
  unfold Chip.settle Chip.settlePins Chip.settleIrq
  exact foldl_keeps Chip.xfers _ (fun b a => by split <;> first | rfl | exact Chip.msix_xfers _ _) _ _
@[simp] theorem Chip.setHart_unitStores (c : Chip) (h : Hart) (x : HartSt) : (c.setHart h x).unitStores = c.unitStores := rfl
@[simp] theorem Chip.modHart_unitStores (c : Chip) (h : Hart) (g : HartSt → HartSt) : (c.modHart h g).unitStores = c.unitStores := rfl
@[simp] theorem Chip.setReg_unitStores (c : Chip) (o : Nat) (v : Datum) : (c.setReg o v).unitStores = c.unitStores := rfl
@[simp] theorem Chip.setRf_unitStores (c : Chip) (o hi lo v : Nat) : (c.setRf o hi lo v).unitStores = c.unitStores := rfl
@[simp] theorem Chip.tick_unitStores (c : Chip) : c.tick.unitStores = c.unitStores := rfl
@[simp] theorem Chip.emit_unitStores (c : Chip) (o : Out) : (c.emit o).unitStores = c.unitStores := rfl
theorem Chip.msix_unitStores (c : Chip) (v : Nat) : (c.msix v).unitStores = c.unitStores := by simp only [Chip.msix]; split <;> rfl
@[simp] theorem Chip.settle_unitStores (c : Chip) : c.settle.unitStores = c.unitStores := by
  unfold Chip.settle Chip.settlePins Chip.settleIrq
  exact foldl_keeps Chip.unitStores _ (fun b a => by split <;> first | rfl | exact Chip.msix_unitStores _ _) _ _
@[simp] theorem Chip.setHart_unitWaits (c : Chip) (h : Hart) (x : HartSt) : (c.setHart h x).unitWaits = c.unitWaits := rfl
@[simp] theorem Chip.modHart_unitWaits (c : Chip) (h : Hart) (g : HartSt → HartSt) : (c.modHart h g).unitWaits = c.unitWaits := rfl
@[simp] theorem Chip.setReg_unitWaits (c : Chip) (o : Nat) (v : Datum) : (c.setReg o v).unitWaits = c.unitWaits := rfl
@[simp] theorem Chip.setRf_unitWaits (c : Chip) (o hi lo v : Nat) : (c.setRf o hi lo v).unitWaits = c.unitWaits := rfl
@[simp] theorem Chip.tick_unitWaits (c : Chip) : c.tick.unitWaits = c.unitWaits := rfl
@[simp] theorem Chip.emit_unitWaits (c : Chip) (o : Out) : (c.emit o).unitWaits = c.unitWaits := rfl
theorem Chip.msix_unitWaits (c : Chip) (v : Nat) : (c.msix v).unitWaits = c.unitWaits := by simp only [Chip.msix]; split <;> rfl
@[simp] theorem Chip.settle_unitWaits (c : Chip) : c.settle.unitWaits = c.unitWaits := by
  unfold Chip.settle Chip.settlePins Chip.settleIrq
  exact foldl_keeps Chip.unitWaits _ (fun b a => by split <;> first | rfl | exact Chip.msix_unitWaits _ _) _ _
@[simp] theorem Chip.setHart_stope (c : Chip) (h : Hart) (x : HartSt) : (c.setHart h x).stope = c.stope := rfl
@[simp] theorem Chip.modHart_stope (c : Chip) (h : Hart) (g : HartSt → HartSt) : (c.modHart h g).stope = c.stope := rfl
@[simp] theorem Chip.setReg_stope (c : Chip) (o : Nat) (v : Datum) : (c.setReg o v).stope = c.stope := rfl
@[simp] theorem Chip.setRf_stope (c : Chip) (o hi lo v : Nat) : (c.setRf o hi lo v).stope = c.stope := rfl
@[simp] theorem Chip.tick_stope (c : Chip) : c.tick.stope = c.stope := rfl
@[simp] theorem Chip.emit_stope (c : Chip) (o : Out) : (c.emit o).stope = c.stope := rfl
theorem Chip.msix_stope (c : Chip) (v : Nat) : (c.msix v).stope = c.stope := by simp only [Chip.msix]; split <;> rfl
@[simp] theorem Chip.settle_stope (c : Chip) : c.settle.stope = c.stope := by
  unfold Chip.settle Chip.settlePins Chip.settleIrq
  exact foldl_keeps Chip.stope _ (fun b a => by split <;> first | rfl | exact Chip.msix_stope _ _) _ _
@[simp] theorem Chip.setHart_slu (c : Chip) (h : Hart) (x : HartSt) : (c.setHart h x).slu = c.slu := rfl
@[simp] theorem Chip.modHart_slu (c : Chip) (h : Hart) (g : HartSt → HartSt) : (c.modHart h g).slu = c.slu := rfl
@[simp] theorem Chip.setReg_slu (c : Chip) (o : Nat) (v : Datum) : (c.setReg o v).slu = c.slu := rfl
@[simp] theorem Chip.setRf_slu (c : Chip) (o hi lo v : Nat) : (c.setRf o hi lo v).slu = c.slu := rfl
@[simp] theorem Chip.tick_slu (c : Chip) : c.tick.slu = c.slu := rfl
@[simp] theorem Chip.emit_slu (c : Chip) (o : Out) : (c.emit o).slu = c.slu := rfl
theorem Chip.msix_slu (c : Chip) (v : Nat) : (c.msix v).slu = c.slu := by simp only [Chip.msix]; split <;> rfl
@[simp] theorem Chip.settle_slu (c : Chip) : c.settle.slu = c.slu := by
  unfold Chip.settle Chip.settlePins Chip.settleIrq
  exact foldl_keeps Chip.slu _ (fun b a => by split <;> first | rfl | exact Chip.msix_slu _ _) _ _
@[simp] theorem Chip.setHart_rounds (c : Chip) (h : Hart) (x : HartSt) : (c.setHart h x).rounds = c.rounds := rfl
@[simp] theorem Chip.modHart_rounds (c : Chip) (h : Hart) (g : HartSt → HartSt) : (c.modHart h g).rounds = c.rounds := rfl
@[simp] theorem Chip.setReg_rounds (c : Chip) (o : Nat) (v : Datum) : (c.setReg o v).rounds = c.rounds := rfl
@[simp] theorem Chip.setRf_rounds (c : Chip) (o hi lo v : Nat) : (c.setRf o hi lo v).rounds = c.rounds := rfl
@[simp] theorem Chip.tick_rounds (c : Chip) : c.tick.rounds = c.rounds := rfl
@[simp] theorem Chip.emit_rounds (c : Chip) (o : Out) : (c.emit o).rounds = c.rounds := rfl
theorem Chip.msix_rounds (c : Chip) (v : Nat) : (c.msix v).rounds = c.rounds := by simp only [Chip.msix]; split <;> rfl
@[simp] theorem Chip.settle_rounds (c : Chip) : c.settle.rounds = c.rounds := by
  unfold Chip.settle Chip.settlePins Chip.settleIrq
  exact foldl_keeps Chip.rounds _ (fun b a => by split <;> first | rfl | exact Chip.msix_rounds _ _) _ _
@[simp] theorem Chip.setHart_cageMsgs (c : Chip) (h : Hart) (x : HartSt) : (c.setHart h x).cageMsgs = c.cageMsgs := rfl
@[simp] theorem Chip.modHart_cageMsgs (c : Chip) (h : Hart) (g : HartSt → HartSt) : (c.modHart h g).cageMsgs = c.cageMsgs := rfl
@[simp] theorem Chip.setReg_cageMsgs (c : Chip) (o : Nat) (v : Datum) : (c.setReg o v).cageMsgs = c.cageMsgs := rfl
@[simp] theorem Chip.setRf_cageMsgs (c : Chip) (o hi lo v : Nat) : (c.setRf o hi lo v).cageMsgs = c.cageMsgs := rfl
@[simp] theorem Chip.tick_cageMsgs (c : Chip) : c.tick.cageMsgs = c.cageMsgs := rfl
@[simp] theorem Chip.emit_cageMsgs (c : Chip) (o : Out) : (c.emit o).cageMsgs = c.cageMsgs := rfl
theorem Chip.msix_cageMsgs (c : Chip) (v : Nat) : (c.msix v).cageMsgs = c.cageMsgs := by simp only [Chip.msix]; split <;> rfl
@[simp] theorem Chip.settle_cageMsgs (c : Chip) : c.settle.cageMsgs = c.cageMsgs := by
  unfold Chip.settle Chip.settlePins Chip.settleIrq
  exact foldl_keeps Chip.cageMsgs _ (fun b a => by split <;> first | rfl | exact Chip.msix_cageMsgs _ _) _ _
@[simp] theorem Chip.setHart_alerts (c : Chip) (h : Hart) (x : HartSt) : (c.setHart h x).alerts = c.alerts := rfl
@[simp] theorem Chip.modHart_alerts (c : Chip) (h : Hart) (g : HartSt → HartSt) : (c.modHart h g).alerts = c.alerts := rfl
@[simp] theorem Chip.setReg_alerts (c : Chip) (o : Nat) (v : Datum) : (c.setReg o v).alerts = c.alerts := rfl
@[simp] theorem Chip.setRf_alerts (c : Chip) (o hi lo v : Nat) : (c.setRf o hi lo v).alerts = c.alerts := rfl
@[simp] theorem Chip.tick_alerts (c : Chip) : c.tick.alerts = c.alerts := rfl
@[simp] theorem Chip.emit_alerts (c : Chip) (o : Out) : (c.emit o).alerts = c.alerts := rfl
theorem Chip.msix_alerts (c : Chip) (v : Nat) : (c.msix v).alerts = c.alerts := by simp only [Chip.msix]; split <;> rfl
@[simp] theorem Chip.settle_alerts (c : Chip) : c.settle.alerts = c.alerts := by
  unfold Chip.settle Chip.settlePins Chip.settleIrq
  exact foldl_keeps Chip.alerts _ (fun b a => by split <;> first | rfl | exact Chip.msix_alerts _ _) _ _
@[simp] theorem Chip.setHart_tokens (c : Chip) (h : Hart) (x : HartSt) : (c.setHart h x).tokens = c.tokens := rfl
@[simp] theorem Chip.modHart_tokens (c : Chip) (h : Hart) (g : HartSt → HartSt) : (c.modHart h g).tokens = c.tokens := rfl
@[simp] theorem Chip.setReg_tokens (c : Chip) (o : Nat) (v : Datum) : (c.setReg o v).tokens = c.tokens := rfl
@[simp] theorem Chip.setRf_tokens (c : Chip) (o hi lo v : Nat) : (c.setRf o hi lo v).tokens = c.tokens := rfl
@[simp] theorem Chip.tick_tokens (c : Chip) : c.tick.tokens = c.tokens := rfl
@[simp] theorem Chip.emit_tokens (c : Chip) (o : Out) : (c.emit o).tokens = c.tokens := rfl
theorem Chip.msix_tokens (c : Chip) (v : Nat) : (c.msix v).tokens = c.tokens := by simp only [Chip.msix]; split <;> rfl
@[simp] theorem Chip.settle_tokens (c : Chip) : c.settle.tokens = c.tokens := by
  unfold Chip.settle Chip.settlePins Chip.settleIrq
  exact foldl_keeps Chip.tokens _ (fun b a => by split <;> first | rfl | exact Chip.msix_tokens _ _) _ _
@[simp] theorem Chip.setHart_held (c : Chip) (h : Hart) (x : HartSt) : (c.setHart h x).held = c.held := rfl
@[simp] theorem Chip.modHart_held (c : Chip) (h : Hart) (g : HartSt → HartSt) : (c.modHart h g).held = c.held := rfl
@[simp] theorem Chip.setReg_held (c : Chip) (o : Nat) (v : Datum) : (c.setReg o v).held = c.held := rfl
@[simp] theorem Chip.setRf_held (c : Chip) (o hi lo v : Nat) : (c.setRf o hi lo v).held = c.held := rfl
@[simp] theorem Chip.tick_held (c : Chip) : c.tick.held = c.held := rfl
@[simp] theorem Chip.emit_held (c : Chip) (o : Out) : (c.emit o).held = c.held := rfl
theorem Chip.msix_held (c : Chip) (v : Nat) : (c.msix v).held = c.held := by simp only [Chip.msix]; split <;> rfl
@[simp] theorem Chip.settle_held (c : Chip) : c.settle.held = c.held := by
  unfold Chip.settle Chip.settlePins Chip.settleIrq
  exact foldl_keeps Chip.held _ (fun b a => by split <;> first | rfl | exact Chip.msix_held _ _) _ _
@[simp] theorem Chip.setHart_peers (c : Chip) (h : Hart) (x : HartSt) : (c.setHart h x).peers = c.peers := rfl
@[simp] theorem Chip.modHart_peers (c : Chip) (h : Hart) (g : HartSt → HartSt) : (c.modHart h g).peers = c.peers := rfl
@[simp] theorem Chip.setReg_peers (c : Chip) (o : Nat) (v : Datum) : (c.setReg o v).peers = c.peers := rfl
@[simp] theorem Chip.setRf_peers (c : Chip) (o hi lo v : Nat) : (c.setRf o hi lo v).peers = c.peers := rfl
@[simp] theorem Chip.tick_peers (c : Chip) : c.tick.peers = c.peers := rfl
@[simp] theorem Chip.emit_peers (c : Chip) (o : Out) : (c.emit o).peers = c.peers := rfl
theorem Chip.msix_peers (c : Chip) (v : Nat) : (c.msix v).peers = c.peers := by simp only [Chip.msix]; split <;> rfl
@[simp] theorem Chip.settle_peers (c : Chip) : c.settle.peers = c.peers := by
  unfold Chip.settle Chip.settlePins Chip.settleIrq
  exact foldl_keeps Chip.peers _ (fun b a => by split <;> first | rfl | exact Chip.msix_peers _ _) _ _
@[simp] theorem Chip.setHart_remote (c : Chip) (h : Hart) (x : HartSt) : (c.setHart h x).remote = c.remote := rfl
@[simp] theorem Chip.modHart_remote (c : Chip) (h : Hart) (g : HartSt → HartSt) : (c.modHart h g).remote = c.remote := rfl
@[simp] theorem Chip.setReg_remote (c : Chip) (o : Nat) (v : Datum) : (c.setReg o v).remote = c.remote := rfl
@[simp] theorem Chip.setRf_remote (c : Chip) (o hi lo v : Nat) : (c.setRf o hi lo v).remote = c.remote := rfl
@[simp] theorem Chip.tick_remote (c : Chip) : c.tick.remote = c.remote := rfl
@[simp] theorem Chip.emit_remote (c : Chip) (o : Out) : (c.emit o).remote = c.remote := rfl
theorem Chip.msix_remote (c : Chip) (v : Nat) : (c.msix v).remote = c.remote := by simp only [Chip.msix]; split <;> rfl
@[simp] theorem Chip.settle_remote (c : Chip) : c.settle.remote = c.remote := by
  unfold Chip.settle Chip.settlePins Chip.settleIrq
  exact foldl_keeps Chip.remote _ (fun b a => by split <;> first | rfl | exact Chip.msix_remote _ _) _ _
@[simp] theorem Chip.setHart_sends (c : Chip) (h : Hart) (x : HartSt) : (c.setHart h x).sends = c.sends := rfl
@[simp] theorem Chip.modHart_sends (c : Chip) (h : Hart) (g : HartSt → HartSt) : (c.modHart h g).sends = c.sends := rfl
@[simp] theorem Chip.setReg_sends (c : Chip) (o : Nat) (v : Datum) : (c.setReg o v).sends = c.sends := rfl
@[simp] theorem Chip.setRf_sends (c : Chip) (o hi lo v : Nat) : (c.setRf o hi lo v).sends = c.sends := rfl
@[simp] theorem Chip.tick_sends (c : Chip) : c.tick.sends = c.sends := rfl
@[simp] theorem Chip.emit_sends (c : Chip) (o : Out) : (c.emit o).sends = c.sends := rfl
theorem Chip.msix_sends (c : Chip) (v : Nat) : (c.msix v).sends = c.sends := by simp only [Chip.msix]; split <;> rfl
@[simp] theorem Chip.settle_sends (c : Chip) : c.settle.sends = c.sends := by
  unfold Chip.settle Chip.settlePins Chip.settleIrq
  exact foldl_keeps Chip.sends _ (fun b a => by split <;> first | rfl | exact Chip.msix_sends _ _) _ _
@[simp] theorem Chip.setHart_slotTags (c : Chip) (h : Hart) (x : HartSt) : (c.setHart h x).slotTags = c.slotTags := rfl
@[simp] theorem Chip.modHart_slotTags (c : Chip) (h : Hart) (g : HartSt → HartSt) : (c.modHart h g).slotTags = c.slotTags := rfl
@[simp] theorem Chip.setReg_slotTags (c : Chip) (o : Nat) (v : Datum) : (c.setReg o v).slotTags = c.slotTags := rfl
@[simp] theorem Chip.setRf_slotTags (c : Chip) (o hi lo v : Nat) : (c.setRf o hi lo v).slotTags = c.slotTags := rfl
@[simp] theorem Chip.tick_slotTags (c : Chip) : c.tick.slotTags = c.slotTags := rfl
@[simp] theorem Chip.emit_slotTags (c : Chip) (o : Out) : (c.emit o).slotTags = c.slotTags := rfl
theorem Chip.msix_slotTags (c : Chip) (v : Nat) : (c.msix v).slotTags = c.slotTags := by simp only [Chip.msix]; split <;> rfl
@[simp] theorem Chip.settle_slotTags (c : Chip) : c.settle.slotTags = c.slotTags := by
  unfold Chip.settle Chip.settlePins Chip.settleIrq
  exact foldl_keeps Chip.slotTags _ (fun b a => by split <;> first | rfl | exact Chip.msix_slotTags _ _) _ _
@[simp] theorem Chip.setHart_home (c : Chip) (h : Hart) (x : HartSt) : (c.setHart h x).home = c.home := rfl
@[simp] theorem Chip.modHart_home (c : Chip) (h : Hart) (g : HartSt → HartSt) : (c.modHart h g).home = c.home := rfl
@[simp] theorem Chip.setReg_home (c : Chip) (o : Nat) (v : Datum) : (c.setReg o v).home = c.home := rfl
@[simp] theorem Chip.setRf_home (c : Chip) (o hi lo v : Nat) : (c.setRf o hi lo v).home = c.home := rfl
@[simp] theorem Chip.tick_home (c : Chip) : c.tick.home = c.home := rfl
@[simp] theorem Chip.emit_home (c : Chip) (o : Out) : (c.emit o).home = c.home := rfl
theorem Chip.msix_home (c : Chip) (v : Nat) : (c.msix v).home = c.home := by simp only [Chip.msix]; split <;> rfl
@[simp] theorem Chip.settle_home (c : Chip) : c.settle.home = c.home := by
  unfold Chip.settle Chip.settlePins Chip.settleIrq
  exact foldl_keeps Chip.home _ (fun b a => by split <;> first | rfl | exact Chip.msix_home _ _) _ _
@[simp] theorem Chip.setHart_heldMarks (c : Chip) (h : Hart) (x : HartSt) : (c.setHart h x).heldMarks = c.heldMarks := rfl
@[simp] theorem Chip.modHart_heldMarks (c : Chip) (h : Hart) (g : HartSt → HartSt) : (c.modHart h g).heldMarks = c.heldMarks := rfl
@[simp] theorem Chip.setReg_heldMarks (c : Chip) (o : Nat) (v : Datum) : (c.setReg o v).heldMarks = c.heldMarks := rfl
@[simp] theorem Chip.setRf_heldMarks (c : Chip) (o hi lo v : Nat) : (c.setRf o hi lo v).heldMarks = c.heldMarks := rfl
@[simp] theorem Chip.tick_heldMarks (c : Chip) : c.tick.heldMarks = c.heldMarks := rfl
@[simp] theorem Chip.emit_heldMarks (c : Chip) (o : Out) : (c.emit o).heldMarks = c.heldMarks := rfl
theorem Chip.msix_heldMarks (c : Chip) (v : Nat) : (c.msix v).heldMarks = c.heldMarks := by simp only [Chip.msix]; split <;> rfl
@[simp] theorem Chip.settle_heldMarks (c : Chip) : c.settle.heldMarks = c.heldMarks := by
  unfold Chip.settle Chip.settlePins Chip.settleIrq
  exact foldl_keeps Chip.heldMarks _ (fun b a => by split <;> first | rfl | exact Chip.msix_heldMarks _ _) _ _
@[simp] theorem Chip.setHart_acked (c : Chip) (h : Hart) (x : HartSt) : (c.setHart h x).acked = c.acked := rfl
@[simp] theorem Chip.modHart_acked (c : Chip) (h : Hart) (g : HartSt → HartSt) : (c.modHart h g).acked = c.acked := rfl
@[simp] theorem Chip.setReg_acked (c : Chip) (o : Nat) (v : Datum) : (c.setReg o v).acked = c.acked := rfl
@[simp] theorem Chip.setRf_acked (c : Chip) (o hi lo v : Nat) : (c.setRf o hi lo v).acked = c.acked := rfl
@[simp] theorem Chip.tick_acked (c : Chip) : c.tick.acked = c.acked := rfl
@[simp] theorem Chip.emit_acked (c : Chip) (o : Out) : (c.emit o).acked = c.acked := rfl
theorem Chip.msix_acked (c : Chip) (v : Nat) : (c.msix v).acked = c.acked := by simp only [Chip.msix]; split <;> rfl
@[simp] theorem Chip.settle_acked (c : Chip) : c.settle.acked = c.acked := by
  unfold Chip.settle Chip.settlePins Chip.settleIrq
  exact foldl_keeps Chip.acked _ (fun b a => by split <;> first | rfl | exact Chip.msix_acked _ _) _ _
@[simp] theorem Chip.setHart_termReplies (c : Chip) (h : Hart) (x : HartSt) : (c.setHart h x).termReplies = c.termReplies := rfl
@[simp] theorem Chip.modHart_termReplies (c : Chip) (h : Hart) (g : HartSt → HartSt) : (c.modHart h g).termReplies = c.termReplies := rfl
@[simp] theorem Chip.setReg_termReplies (c : Chip) (o : Nat) (v : Datum) : (c.setReg o v).termReplies = c.termReplies := rfl
@[simp] theorem Chip.setRf_termReplies (c : Chip) (o hi lo v : Nat) : (c.setRf o hi lo v).termReplies = c.termReplies := rfl
@[simp] theorem Chip.tick_termReplies (c : Chip) : c.tick.termReplies = c.termReplies := rfl
@[simp] theorem Chip.emit_termReplies (c : Chip) (o : Out) : (c.emit o).termReplies = c.termReplies := rfl
theorem Chip.msix_termReplies (c : Chip) (v : Nat) : (c.msix v).termReplies = c.termReplies := by simp only [Chip.msix]; split <;> rfl
@[simp] theorem Chip.settle_termReplies (c : Chip) : c.settle.termReplies = c.termReplies := by
  unfold Chip.settle Chip.settlePins Chip.settleIrq
  exact foldl_keeps Chip.termReplies _ (fun b a => by split <;> first | rfl | exact Chip.msix_termReplies _ _) _ _
@[simp] theorem Chip.setHart_time (c : Chip) (h : Hart) (x : HartSt) : (c.setHart h x).time = c.time := rfl
@[simp] theorem Chip.modHart_time (c : Chip) (h : Hart) (g : HartSt → HartSt) : (c.modHart h g).time = c.time := rfl
@[simp] theorem Chip.setReg_time (c : Chip) (o : Nat) (v : Datum) : (c.setReg o v).time = c.time := rfl
@[simp] theorem Chip.setRf_time (c : Chip) (o hi lo v : Nat) : (c.setRf o hi lo v).time = c.time := rfl
@[simp] theorem Chip.tick_time (c : Chip) : c.tick.time = c.time := rfl
@[simp] theorem Chip.emit_time (c : Chip) (o : Out) : (c.emit o).time = c.time := rfl
theorem Chip.msix_time (c : Chip) (v : Nat) : (c.msix v).time = c.time := by simp only [Chip.msix]; split <;> rfl
@[simp] theorem Chip.settle_time (c : Chip) : c.settle.time = c.time := by
  unfold Chip.settle Chip.settlePins Chip.settleIrq
  exact foldl_keeps Chip.time _ (fun b a => by split <;> first | rfl | exact Chip.msix_time _ _) _ _
@[simp] theorem Chip.setHart_pcie (c : Chip) (h : Hart) (x : HartSt) : (c.setHart h x).pcie = c.pcie := rfl
@[simp] theorem Chip.modHart_pcie (c : Chip) (h : Hart) (g : HartSt → HartSt) : (c.modHart h g).pcie = c.pcie := rfl
@[simp] theorem Chip.setReg_pcie (c : Chip) (o : Nat) (v : Datum) : (c.setReg o v).pcie = c.pcie := rfl
@[simp] theorem Chip.setRf_pcie (c : Chip) (o hi lo v : Nat) : (c.setRf o hi lo v).pcie = c.pcie := rfl
@[simp] theorem Chip.tick_pcie (c : Chip) : c.tick.pcie = c.pcie := rfl
@[simp] theorem Chip.emit_pcie (c : Chip) (o : Out) : (c.emit o).pcie = c.pcie := rfl
@[simp] theorem Chip.setHart_hdf (c : Chip) (h : Hart) (x : HartSt) : (c.setHart h x).hdf = c.hdf := rfl
@[simp] theorem Chip.modHart_hdf (c : Chip) (h : Hart) (g : HartSt → HartSt) : (c.modHart h g).hdf = c.hdf := rfl
@[simp] theorem Chip.setReg_hdf (c : Chip) (o : Nat) (v : Datum) : (c.setReg o v).hdf = c.hdf := rfl
@[simp] theorem Chip.setRf_hdf (c : Chip) (o hi lo v : Nat) : (c.setRf o hi lo v).hdf = c.hdf := rfl
@[simp] theorem Chip.tick_hdf (c : Chip) : c.tick.hdf = c.hdf := rfl
@[simp] theorem Chip.emit_hdf (c : Chip) (o : Out) : (c.emit o).hdf = c.hdf := rfl
theorem Chip.msix_hdf (c : Chip) (v : Nat) : (c.msix v).hdf = c.hdf := by simp only [Chip.msix]; split <;> rfl
@[simp] theorem Chip.settle_hdf (c : Chip) : c.settle.hdf = c.hdf := by
  unfold Chip.settle Chip.settlePins Chip.settleIrq
  exact foldl_keeps Chip.hdf _ (fun b a => by split <;> first | rfl | exact Chip.msix_hdf _ _) _ _
@[simp] theorem Chip.setHart_nvm (c : Chip) (h : Hart) (x : HartSt) : (c.setHart h x).nvm = c.nvm := rfl
@[simp] theorem Chip.modHart_nvm (c : Chip) (h : Hart) (g : HartSt → HartSt) : (c.modHart h g).nvm = c.nvm := rfl
@[simp] theorem Chip.setReg_nvm (c : Chip) (o : Nat) (v : Datum) : (c.setReg o v).nvm = c.nvm := rfl
@[simp] theorem Chip.setRf_nvm (c : Chip) (o hi lo v : Nat) : (c.setRf o hi lo v).nvm = c.nvm := rfl
@[simp] theorem Chip.tick_nvm (c : Chip) : c.tick.nvm = c.nvm := rfl
@[simp] theorem Chip.emit_nvm (c : Chip) (o : Out) : (c.emit o).nvm = c.nvm := rfl
theorem Chip.msix_nvm (c : Chip) (v : Nat) : (c.msix v).nvm = c.nvm := by simp only [Chip.msix]; split <;> rfl
@[simp] theorem Chip.settle_nvm (c : Chip) : c.settle.nvm = c.nvm := by
  unfold Chip.settle Chip.settlePins Chip.settleIrq
  exact foldl_keeps Chip.nvm _ (fun b a => by split <;> first | rfl | exact Chip.msix_nvm _ _) _ _
@[simp] theorem Chip.setHart_power (c : Chip) (h : Hart) (x : HartSt) : (c.setHart h x).power = c.power := rfl
@[simp] theorem Chip.modHart_power (c : Chip) (h : Hart) (g : HartSt → HartSt) : (c.modHart h g).power = c.power := rfl
@[simp] theorem Chip.setReg_power (c : Chip) (o : Nat) (v : Datum) : (c.setReg o v).power = c.power := rfl
@[simp] theorem Chip.setRf_power (c : Chip) (o hi lo v : Nat) : (c.setRf o hi lo v).power = c.power := rfl
@[simp] theorem Chip.tick_power (c : Chip) : c.tick.power = c.power := rfl
@[simp] theorem Chip.emit_power (c : Chip) (o : Out) : (c.emit o).power = c.power := rfl
theorem Chip.msix_power (c : Chip) (v : Nat) : (c.msix v).power = c.power := by simp only [Chip.msix]; split <;> rfl
@[simp] theorem Chip.settle_power (c : Chip) : c.settle.power = c.power := by
  unfold Chip.settle Chip.settlePins Chip.settleIrq
  exact foldl_keeps Chip.power _ (fun b a => by split <;> first | rfl | exact Chip.msix_power _ _) _ _
@[simp] theorem Chip.setHart_pins (c : Chip) (h : Hart) (x : HartSt) : (c.setHart h x).pins = c.pins := rfl
@[simp] theorem Chip.modHart_pins (c : Chip) (h : Hart) (g : HartSt → HartSt) : (c.modHart h g).pins = c.pins := rfl
@[simp] theorem Chip.setReg_pins (c : Chip) (o : Nat) (v : Datum) : (c.setReg o v).pins = c.pins := rfl
@[simp] theorem Chip.setRf_pins (c : Chip) (o hi lo v : Nat) : (c.setRf o hi lo v).pins = c.pins := rfl
@[simp] theorem Chip.tick_pins (c : Chip) : c.tick.pins = c.pins := rfl
@[simp] theorem Chip.emit_pins (c : Chip) (o : Out) : (c.emit o).pins = c.pins := rfl
theorem Chip.msix_pins (c : Chip) (v : Nat) : (c.msix v).pins = c.pins := by simp only [Chip.msix]; split <;> rfl
@[simp] theorem Chip.setHart_mcSeen (c : Chip) (h : Hart) (x : HartSt) : (c.setHart h x).mcSeen = c.mcSeen := rfl
@[simp] theorem Chip.modHart_mcSeen (c : Chip) (h : Hart) (g : HartSt → HartSt) : (c.modHart h g).mcSeen = c.mcSeen := rfl
@[simp] theorem Chip.setReg_mcSeen (c : Chip) (o : Nat) (v : Datum) : (c.setReg o v).mcSeen = c.mcSeen := rfl
@[simp] theorem Chip.setRf_mcSeen (c : Chip) (o hi lo v : Nat) : (c.setRf o hi lo v).mcSeen = c.mcSeen := rfl
@[simp] theorem Chip.tick_mcSeen (c : Chip) : c.tick.mcSeen = c.mcSeen := rfl
@[simp] theorem Chip.emit_mcSeen (c : Chip) (o : Out) : (c.emit o).mcSeen = c.mcSeen := rfl
theorem Chip.msix_mcSeen (c : Chip) (v : Nat) : (c.msix v).mcSeen = c.mcSeen := by simp only [Chip.msix]; split <;> rfl
@[simp] theorem Chip.settle_mcSeen (c : Chip) : c.settle.mcSeen = c.mcSeen := by
  unfold Chip.settle Chip.settlePins Chip.settleIrq
  exact foldl_keeps Chip.mcSeen _ (fun b a => by split <;> first | rfl | exact Chip.msix_mcSeen _ _) _ _
@[simp] theorem Chip.setHart_canary (c : Chip) (h : Hart) (x : HartSt) : (c.setHart h x).canary = c.canary := rfl
@[simp] theorem Chip.modHart_canary (c : Chip) (h : Hart) (g : HartSt → HartSt) : (c.modHart h g).canary = c.canary := rfl
@[simp] theorem Chip.setReg_canary (c : Chip) (o : Nat) (v : Datum) : (c.setReg o v).canary = c.canary := rfl
@[simp] theorem Chip.setRf_canary (c : Chip) (o hi lo v : Nat) : (c.setRf o hi lo v).canary = c.canary := rfl
@[simp] theorem Chip.tick_canary (c : Chip) : c.tick.canary = c.canary := rfl
@[simp] theorem Chip.emit_canary (c : Chip) (o : Out) : (c.emit o).canary = c.canary := rfl
theorem Chip.msix_canary (c : Chip) (v : Nat) : (c.msix v).canary = c.canary := by simp only [Chip.msix]; split <;> rfl
@[simp] theorem Chip.settle_canary (c : Chip) : c.settle.canary = c.canary := by
  unfold Chip.settle Chip.settlePins Chip.settleIrq
  exact foldl_keeps Chip.canary _ (fun b a => by split <;> first | rfl | exact Chip.msix_canary _ _) _ _
@[simp] theorem Chip.setHart_tap (c : Chip) (h : Hart) (x : HartSt) : (c.setHart h x).tap = c.tap := rfl
@[simp] theorem Chip.modHart_tap (c : Chip) (h : Hart) (g : HartSt → HartSt) : (c.modHart h g).tap = c.tap := rfl
@[simp] theorem Chip.setReg_tap (c : Chip) (o : Nat) (v : Datum) : (c.setReg o v).tap = c.tap := rfl
@[simp] theorem Chip.setRf_tap (c : Chip) (o hi lo v : Nat) : (c.setRf o hi lo v).tap = c.tap := rfl
@[simp] theorem Chip.tick_tap (c : Chip) : c.tick.tap = c.tap := rfl
@[simp] theorem Chip.emit_tap (c : Chip) (o : Out) : (c.emit o).tap = c.tap := rfl
theorem Chip.msix_tap (c : Chip) (v : Nat) : (c.msix v).tap = c.tap := by simp only [Chip.msix]; split <;> rfl
@[simp] theorem Chip.settle_tap (c : Chip) : c.settle.tap = c.tap := by
  unfold Chip.settle Chip.settlePins Chip.settleIrq
  exact foldl_keeps Chip.tap _ (fun b a => by split <;> first | rfl | exact Chip.msix_tap _ _) _ _
@[simp] theorem Chip.setHart_traceSync (c : Chip) (h : Hart) (x : HartSt) : (c.setHart h x).traceSync = c.traceSync := rfl
@[simp] theorem Chip.modHart_traceSync (c : Chip) (h : Hart) (g : HartSt → HartSt) : (c.modHart h g).traceSync = c.traceSync := rfl
@[simp] theorem Chip.setReg_traceSync (c : Chip) (o : Nat) (v : Datum) : (c.setReg o v).traceSync = c.traceSync := rfl
@[simp] theorem Chip.setRf_traceSync (c : Chip) (o hi lo v : Nat) : (c.setRf o hi lo v).traceSync = c.traceSync := rfl
@[simp] theorem Chip.tick_traceSync (c : Chip) : c.tick.traceSync = c.traceSync := rfl
@[simp] theorem Chip.emit_traceSync (c : Chip) (o : Out) : (c.emit o).traceSync = c.traceSync := rfl
theorem Chip.msix_traceSync (c : Chip) (v : Nat) : (c.msix v).traceSync = c.traceSync := by simp only [Chip.msix]; split <;> rfl
@[simp] theorem Chip.settle_traceSync (c : Chip) : c.settle.traceSync = c.traceSync := by
  unfold Chip.settle Chip.settlePins Chip.settleIrq
  exact foldl_keeps Chip.traceSync _ (fun b a => by split <;> first | rfl | exact Chip.msix_traceSync _ _) _ _
@[simp] theorem Chip.setHart_out (c : Chip) (h : Hart) (x : HartSt) : (c.setHart h x).out = c.out := rfl
@[simp] theorem Chip.modHart_out (c : Chip) (h : Hart) (g : HartSt → HartSt) : (c.modHart h g).out = c.out := rfl
@[simp] theorem Chip.setReg_out (c : Chip) (o : Nat) (v : Datum) : (c.setReg o v).out = c.out := rfl
@[simp] theorem Chip.setRf_out (c : Chip) (o hi lo v : Nat) : (c.setRf o hi lo v).out = c.out := rfl
@[simp] theorem Chip.tick_out (c : Chip) : c.tick.out = c.out := rfl
@[simp] theorem Chip.setHart_fresh (c : Chip) (h : Hart) (x : HartSt) : (c.setHart h x).fresh = c.fresh := rfl
@[simp] theorem Chip.modHart_fresh (c : Chip) (h : Hart) (g : HartSt → HartSt) : (c.modHart h g).fresh = c.fresh := rfl
@[simp] theorem Chip.setReg_fresh (c : Chip) (o : Nat) (v : Datum) : (c.setReg o v).fresh = c.fresh := rfl
@[simp] theorem Chip.setRf_fresh (c : Chip) (o hi lo v : Nat) : (c.setRf o hi lo v).fresh = c.fresh := rfl
@[simp] theorem Chip.emit_fresh (c : Chip) (o : Out) : (c.emit o).fresh = c.fresh := rfl
theorem Chip.msix_fresh (c : Chip) (v : Nat) : (c.msix v).fresh = c.fresh := by simp only [Chip.msix]; split <;> rfl
@[simp] theorem Chip.settle_fresh (c : Chip) : c.settle.fresh = c.fresh := by
  unfold Chip.settle Chip.settlePins Chip.settleIrq
  exact foldl_keeps Chip.fresh _ (fun b a => by split <;> first | rfl | exact Chip.msix_fresh _ _) _ _
@[simp] theorem Chip.tick_fresh (c : Chip) : c.tick.fresh = c.fresh + 1 := rfl
@[simp] theorem Chip.emit_out (c : Chip) (o : Out) : (c.emit o).out = c.out ++ [o] := rfl

@[simp] theorem Chip.settle_hart (c : Chip) (h : Hart) : c.settle.hart h = c.hart h := by simp [Chip.hart]
@[simp] theorem Chip.settle_reg (c : Chip) (o : Nat) : c.settle.reg o = c.reg o := by simp [Chip.reg]
@[simp] theorem Chip.settle_rf (c : Chip) (o hi lo : Nat) : c.settle.rf o hi lo = c.rf o hi lo := by simp [Chip.rf]
@[simp] theorem Chip.setReg_hart (c : Chip) (o : Nat) (v : Datum) (h : Hart) : (c.setReg o v).hart h = c.hart h := rfl
@[simp] theorem Chip.tick_hart (c : Chip) (h : Hart) : c.tick.hart h = c.hart h := rfl
@[simp] theorem Chip.emit_hart (c : Chip) (o : Out) (h : Hart) : (c.emit o).hart h = c.hart h := rfl
@[simp] theorem Chip.setHart_reg (c : Chip) (h : Hart) (x : HartSt) (o : Nat) : (c.setHart h x).reg o = c.reg o := rfl
@[simp] theorem Chip.modHart_reg (c : Chip) (h : Hart) (f : HartSt → HartSt) (o : Nat) : (c.modHart h f).reg o = c.reg o := rfl

/-- Recording an error (R679) keeps whatever no register write changes. -/
theorem Chip.err_keeps {β : Type} (p : Chip → β) (hp : ∀ c o v, p (Chip.setReg c o v) = p c) (c : Chip) (page : Nat)
    (who : Requester) (code off : Nat) : p (c.err page who code off) = p c := by
  unfold Chip.err
  extract_lets n c1 c2
  have h1 : p c1 = p c := hp _ _ _
  have h2 : p c2 = p c := (hp _ _ _).trans h1
  split
  · exact h2
  · exact (hp _ _ _).trans h2
/-- Writing a Canary entry (R645, R651) keeps everything but the Canary. -/
theorem Chip.logIn_keeps {β : Type} (p : Chip → β) (hp : ∀ (c : Chip) (k : Canary), p { c with canary := k } = p c)
    (c : Chip) (r k i e : Nat) (p0 p1 : Datum) : p (c.logIn r k i e p0 p1) = p c := by
  unfold Chip.logIn
  extract_lets _ _
  split <;> exact hp _ _
@[simp] theorem Chip.err_mode (c : Chip) (g : Nat) (w : Requester) (k o : Nat) : (c.err g w k o).mode = c.mode :=
  Chip.err_keeps Chip.mode (fun _ _ _ => rfl) c g w k o
@[simp] theorem Chip.log_mode (c : Chip) (k i e : Nat) (p0 p1 : Datum) : (c.log k i e p0 p1).mode = c.mode :=
  Chip.logIn_keeps Chip.mode (fun _ _ => rfl) c _ k i e p0 p1
@[simp] theorem Chip.err_prev (c : Chip) (g : Nat) (w : Requester) (k o : Nat) : (c.err g w k o).prev = c.prev :=
  Chip.err_keeps Chip.prev (fun _ _ _ => rfl) c g w k o
@[simp] theorem Chip.log_prev (c : Chip) (k i e : Nat) (p0 p1 : Datum) : (c.log k i e p0 p1).prev = c.prev :=
  Chip.logIn_keeps Chip.prev (fun _ _ => rfl) c _ k i e p0 p1
@[simp] theorem Chip.err_entered (c : Chip) (g : Nat) (w : Requester) (k o : Nat) : (c.err g w k o).entered = c.entered :=
  Chip.err_keeps Chip.entered (fun _ _ _ => rfl) c g w k o
@[simp] theorem Chip.log_entered (c : Chip) (k i e : Nat) (p0 p1 : Datum) : (c.log k i e p0 p1).entered = c.entered :=
  Chip.logIn_keeps Chip.entered (fun _ _ => rfl) c _ k i e p0 p1
@[simp] theorem Chip.err_faulted (c : Chip) (g : Nat) (w : Requester) (k o : Nat) : (c.err g w k o).faulted = c.faulted :=
  Chip.err_keeps Chip.faulted (fun _ _ _ => rfl) c g w k o
@[simp] theorem Chip.log_faulted (c : Chip) (k i e : Nat) (p0 p1 : Datum) : (c.log k i e p0 p1).faulted = c.faulted :=
  Chip.logIn_keeps Chip.faulted (fun _ _ => rfl) c _ k i e p0 p1
@[simp] theorem Chip.err_cap128 (c : Chip) (g : Nat) (w : Requester) (k o : Nat) : (c.err g w k o).cap128 = c.cap128 :=
  Chip.err_keeps Chip.cap128 (fun _ _ _ => rfl) c g w k o
@[simp] theorem Chip.log_cap128 (c : Chip) (k i e : Nat) (p0 p1 : Datum) : (c.log k i e p0 p1).cap128 = c.cap128 :=
  Chip.logIn_keeps Chip.cap128 (fun _ _ => rfl) c _ k i e p0 p1
@[simp] theorem Chip.err_lidB (c : Chip) (g : Nat) (w : Requester) (k o : Nat) : (c.err g w k o).lidB = c.lidB :=
  Chip.err_keeps Chip.lidB (fun _ _ _ => rfl) c g w k o
@[simp] theorem Chip.log_lidB (c : Chip) (k i e : Nat) (p0 p1 : Datum) : (c.log k i e p0 p1).lidB = c.lidB :=
  Chip.logIn_keeps Chip.lidB (fun _ _ => rfl) c _ k i e p0 p1
@[simp] theorem Chip.err_harts (c : Chip) (g : Nat) (w : Requester) (k o : Nat) : (c.err g w k o).harts = c.harts :=
  Chip.err_keeps Chip.harts (fun _ _ _ => rfl) c g w k o
@[simp] theorem Chip.log_harts (c : Chip) (k i e : Nat) (p0 p1 : Datum) : (c.log k i e p0 p1).harts = c.harts :=
  Chip.logIn_keeps Chip.harts (fun _ _ => rfl) c _ k i e p0 p1
@[simp] theorem Chip.err_mem (c : Chip) (g : Nat) (w : Requester) (k o : Nat) : (c.err g w k o).mem = c.mem :=
  Chip.err_keeps Chip.mem (fun _ _ _ => rfl) c g w k o
@[simp] theorem Chip.log_mem (c : Chip) (k i e : Nat) (p0 p1 : Datum) : (c.log k i e p0 p1).mem = c.mem :=
  Chip.logIn_keeps Chip.mem (fun _ _ => rfl) c _ k i e p0 p1
@[simp] theorem Chip.err_sb (c : Chip) (g : Nat) (w : Requester) (k o : Nat) : (c.err g w k o).sb = c.sb :=
  Chip.err_keeps Chip.sb (fun _ _ _ => rfl) c g w k o
@[simp] theorem Chip.log_sb (c : Chip) (k i e : Nat) (p0 p1 : Datum) : (c.log k i e p0 p1).sb = c.sb :=
  Chip.logIn_keeps Chip.sb (fun _ _ => rfl) c _ k i e p0 p1
@[simp] theorem Chip.err_tlb (c : Chip) (g : Nat) (w : Requester) (k o : Nat) : (c.err g w k o).tlb = c.tlb :=
  Chip.err_keeps Chip.tlb (fun _ _ _ => rfl) c g w k o
@[simp] theorem Chip.log_tlb (c : Chip) (k i e : Nat) (p0 p1 : Datum) : (c.log k i e p0 p1).tlb = c.tlb :=
  Chip.logIn_keeps Chip.tlb (fun _ _ => rfl) c _ k i e p0 p1
@[simp] theorem Chip.err_latent (c : Chip) (g : Nat) (w : Requester) (k o : Nat) : (c.err g w k o).latent = c.latent :=
  Chip.err_keeps Chip.latent (fun _ _ _ => rfl) c g w k o
@[simp] theorem Chip.err_caches (c : Chip) (g : Nat) (w : Requester) (k o : Nat) : (c.err g w k o).caches = c.caches :=
  Chip.err_keeps Chip.caches (fun _ _ _ => rfl) c g w k o
@[simp] theorem Chip.err_tables (c : Chip) (g : Nat) (w : Requester) (k o : Nat) : (c.err g w k o).tables = c.tables :=
  Chip.err_keeps Chip.tables (fun _ _ _ => rfl) c g w k o
@[simp] theorem Chip.err_faulty (c : Chip) (g : Nat) (w : Requester) (k o : Nat) : (c.err g w k o).faulty = c.faulty :=
  Chip.err_keeps Chip.faulty (fun _ _ _ => rfl) c g w k o
@[simp] theorem Chip.err_unitWords (c : Chip) (g : Nat) (w : Requester) (k o : Nat) : (c.err g w k o).unitWords = c.unitWords :=
  Chip.err_keeps Chip.unitWords (fun _ _ _ => rfl) c g w k o
@[simp] theorem Chip.err_injections (c : Chip) (g : Nat) (w : Requester) (k o : Nat) : (c.err g w k o).injections = c.injections :=
  Chip.err_keeps Chip.injections (fun _ _ _ => rfl) c g w k o
@[simp] theorem Chip.err_acted (c : Chip) (g : Nat) (w : Requester) (k o : Nat) : (c.err g w k o).acted = c.acted :=
  Chip.err_keeps Chip.acted (fun _ _ _ => rfl) c g w k o
@[simp] theorem Chip.log_latent (c : Chip) (k i e : Nat) (p0 p1 : Datum) : (c.log k i e p0 p1).latent = c.latent :=
  Chip.logIn_keeps Chip.latent (fun _ _ => rfl) c _ k i e p0 p1
@[simp] theorem Chip.log_caches (c : Chip) (k i e : Nat) (p0 p1 : Datum) : (c.log k i e p0 p1).caches = c.caches :=
  Chip.logIn_keeps Chip.caches (fun _ _ => rfl) c _ k i e p0 p1
@[simp] theorem Chip.log_tables (c : Chip) (k i e : Nat) (p0 p1 : Datum) : (c.log k i e p0 p1).tables = c.tables :=
  Chip.logIn_keeps Chip.tables (fun _ _ => rfl) c _ k i e p0 p1
@[simp] theorem Chip.log_faulty (c : Chip) (k i e : Nat) (p0 p1 : Datum) : (c.log k i e p0 p1).faulty = c.faulty :=
  Chip.logIn_keeps Chip.faulty (fun _ _ => rfl) c _ k i e p0 p1
@[simp] theorem Chip.log_unitWords (c : Chip) (k i e : Nat) (p0 p1 : Datum) : (c.log k i e p0 p1).unitWords = c.unitWords :=
  Chip.logIn_keeps Chip.unitWords (fun _ _ => rfl) c _ k i e p0 p1
@[simp] theorem Chip.log_injections (c : Chip) (k i e : Nat) (p0 p1 : Datum) : (c.log k i e p0 p1).injections = c.injections :=
  Chip.logIn_keeps Chip.injections (fun _ _ => rfl) c _ k i e p0 p1
@[simp] theorem Chip.log_acted (c : Chip) (k i e : Nat) (p0 p1 : Datum) : (c.log k i e p0 p1).acted = c.acted :=
  Chip.logIn_keeps Chip.acted (fun _ _ => rfl) c _ k i e p0 p1
@[simp] theorem Chip.err_ctlFailed (c : Chip) (g : Nat) (w : Requester) (k o : Nat) : (c.err g w k o).ctlFailed = c.ctlFailed :=
  Chip.err_keeps Chip.ctlFailed (fun _ _ _ => rfl) c g w k o
@[simp] theorem Chip.log_ctlFailed (c : Chip) (k i e : Nat) (p0 p1 : Datum) : (c.log k i e p0 p1).ctlFailed = c.ctlFailed :=
  Chip.logIn_keeps Chip.ctlFailed (fun _ _ => rfl) c _ k i e p0 p1
@[simp] theorem Chip.err_portFailed (c : Chip) (g : Nat) (w : Requester) (k o : Nat) : (c.err g w k o).portFailed = c.portFailed :=
  Chip.err_keeps Chip.portFailed (fun _ _ _ => rfl) c g w k o
@[simp] theorem Chip.log_portFailed (c : Chip) (k i e : Nat) (p0 p1 : Datum) : (c.log k i e p0 p1).portFailed = c.portFailed :=
  Chip.logIn_keeps Chip.portFailed (fun _ _ => rfl) c _ k i e p0 p1
@[simp] theorem Chip.err_coresLost (c : Chip) (g : Nat) (w : Requester) (k o : Nat) : (c.err g w k o).coresLost = c.coresLost :=
  Chip.err_keeps Chip.coresLost (fun _ _ _ => rfl) c g w k o
@[simp] theorem Chip.log_coresLost (c : Chip) (k i e : Nat) (p0 p1 : Datum) : (c.log k i e p0 p1).coresLost = c.coresLost :=
  Chip.logIn_keeps Chip.coresLost (fun _ _ => rfl) c _ k i e p0 p1
@[simp] theorem Chip.err_spared (c : Chip) (g : Nat) (w : Requester) (k o : Nat) : (c.err g w k o).spared = c.spared :=
  Chip.err_keeps Chip.spared (fun _ _ _ => rfl) c g w k o
@[simp] theorem Chip.log_spared (c : Chip) (k i e : Nat) (p0 p1 : Datum) : (c.log k i e p0 p1).spared = c.spared :=
  Chip.logIn_keeps Chip.spared (fun _ _ => rfl) c _ k i e p0 p1
@[simp] theorem Chip.log_pages (c : Chip) (k i e : Nat) (p0 p1 : Datum) : (c.log k i e p0 p1).pages = c.pages :=
  Chip.logIn_keeps Chip.pages (fun _ _ => rfl) c _ k i e p0 p1
@[simp] theorem Chip.err_fc (c : Chip) (g : Nat) (w : Requester) (k o : Nat) : (c.err g w k o).fc = c.fc :=
  Chip.err_keeps Chip.fc (fun _ _ _ => rfl) c g w k o
@[simp] theorem Chip.log_fc (c : Chip) (k i e : Nat) (p0 p1 : Datum) : (c.log k i e p0 p1).fc = c.fc :=
  Chip.logIn_keeps Chip.fc (fun _ _ => rfl) c _ k i e p0 p1
@[simp] theorem Chip.err_patch (c : Chip) (g : Nat) (w : Requester) (k o : Nat) : (c.err g w k o).patch = c.patch :=
  Chip.err_keeps Chip.patch (fun _ _ _ => rfl) c g w k o
@[simp] theorem Chip.log_patch (c : Chip) (k i e : Nat) (p0 p1 : Datum) : (c.log k i e p0 p1).patch = c.patch :=
  Chip.logIn_keeps Chip.patch (fun _ _ => rfl) c _ k i e p0 p1
@[simp] theorem Chip.err_matchTable (c : Chip) (g : Nat) (w : Requester) (k o : Nat) : (c.err g w k o).matchTable = c.matchTable :=
  Chip.err_keeps Chip.matchTable (fun _ _ _ => rfl) c g w k o
@[simp] theorem Chip.log_matchTable (c : Chip) (k i e : Nat) (p0 p1 : Datum) : (c.log k i e p0 p1).matchTable = c.matchTable :=
  Chip.logIn_keeps Chip.matchTable (fun _ _ => rfl) c _ k i e p0 p1
@[simp] theorem Chip.err_blend (c : Chip) (g : Nat) (w : Requester) (k o : Nat) : (c.err g w k o).blend = c.blend :=
  Chip.err_keeps Chip.blend (fun _ _ _ => rfl) c g w k o
@[simp] theorem Chip.log_blend (c : Chip) (k i e : Nat) (p0 p1 : Datum) : (c.log k i e p0 p1).blend = c.blend :=
  Chip.logIn_keeps Chip.blend (fun _ _ => rfl) c _ k i e p0 p1
@[simp] theorem Chip.err_blendVmid (c : Chip) (g : Nat) (w : Requester) (k o : Nat) : (c.err g w k o).blendVmid = c.blendVmid :=
  Chip.err_keeps Chip.blendVmid (fun _ _ _ => rfl) c g w k o
@[simp] theorem Chip.log_blendVmid (c : Chip) (k i e : Nat) (p0 p1 : Datum) : (c.log k i e p0 p1).blendVmid = c.blendVmid :=
  Chip.logIn_keeps Chip.blendVmid (fun _ _ => rfl) c _ k i e p0 p1
@[simp] theorem Chip.err_blendBad (c : Chip) (g : Nat) (w : Requester) (k o : Nat) : (c.err g w k o).blendBad = c.blendBad :=
  Chip.err_keeps Chip.blendBad (fun _ _ _ => rfl) c g w k o
@[simp] theorem Chip.log_blendBad (c : Chip) (k i e : Nat) (p0 p1 : Datum) : (c.log k i e p0 p1).blendBad = c.blendBad :=
  Chip.logIn_keeps Chip.blendBad (fun _ _ => rfl) c _ k i e p0 p1
@[simp] theorem Chip.err_xfers (c : Chip) (g : Nat) (w : Requester) (k o : Nat) : (c.err g w k o).xfers = c.xfers :=
  Chip.err_keeps Chip.xfers (fun _ _ _ => rfl) c g w k o
@[simp] theorem Chip.log_xfers (c : Chip) (k i e : Nat) (p0 p1 : Datum) : (c.log k i e p0 p1).xfers = c.xfers :=
  Chip.logIn_keeps Chip.xfers (fun _ _ => rfl) c _ k i e p0 p1
@[simp] theorem Chip.err_unitStores (c : Chip) (g : Nat) (w : Requester) (k o : Nat) : (c.err g w k o).unitStores = c.unitStores :=
  Chip.err_keeps Chip.unitStores (fun _ _ _ => rfl) c g w k o
@[simp] theorem Chip.log_unitStores (c : Chip) (k i e : Nat) (p0 p1 : Datum) : (c.log k i e p0 p1).unitStores = c.unitStores :=
  Chip.logIn_keeps Chip.unitStores (fun _ _ => rfl) c _ k i e p0 p1
@[simp] theorem Chip.err_unitWaits (c : Chip) (g : Nat) (w : Requester) (k o : Nat) : (c.err g w k o).unitWaits = c.unitWaits :=
  Chip.err_keeps Chip.unitWaits (fun _ _ _ => rfl) c g w k o
@[simp] theorem Chip.log_unitWaits (c : Chip) (k i e : Nat) (p0 p1 : Datum) : (c.log k i e p0 p1).unitWaits = c.unitWaits :=
  Chip.logIn_keeps Chip.unitWaits (fun _ _ => rfl) c _ k i e p0 p1
@[simp] theorem Chip.err_stope (c : Chip) (g : Nat) (w : Requester) (k o : Nat) : (c.err g w k o).stope = c.stope :=
  Chip.err_keeps Chip.stope (fun _ _ _ => rfl) c g w k o
@[simp] theorem Chip.log_stope (c : Chip) (k i e : Nat) (p0 p1 : Datum) : (c.log k i e p0 p1).stope = c.stope :=
  Chip.logIn_keeps Chip.stope (fun _ _ => rfl) c _ k i e p0 p1
@[simp] theorem Chip.err_slu (c : Chip) (g : Nat) (w : Requester) (k o : Nat) : (c.err g w k o).slu = c.slu :=
  Chip.err_keeps Chip.slu (fun _ _ _ => rfl) c g w k o
@[simp] theorem Chip.log_slu (c : Chip) (k i e : Nat) (p0 p1 : Datum) : (c.log k i e p0 p1).slu = c.slu :=
  Chip.logIn_keeps Chip.slu (fun _ _ => rfl) c _ k i e p0 p1
@[simp] theorem Chip.err_rounds (c : Chip) (g : Nat) (w : Requester) (k o : Nat) : (c.err g w k o).rounds = c.rounds :=
  Chip.err_keeps Chip.rounds (fun _ _ _ => rfl) c g w k o
@[simp] theorem Chip.log_rounds (c : Chip) (k i e : Nat) (p0 p1 : Datum) : (c.log k i e p0 p1).rounds = c.rounds :=
  Chip.logIn_keeps Chip.rounds (fun _ _ => rfl) c _ k i e p0 p1
@[simp] theorem Chip.err_cageMsgs (c : Chip) (g : Nat) (w : Requester) (k o : Nat) : (c.err g w k o).cageMsgs = c.cageMsgs :=
  Chip.err_keeps Chip.cageMsgs (fun _ _ _ => rfl) c g w k o
@[simp] theorem Chip.log_cageMsgs (c : Chip) (k i e : Nat) (p0 p1 : Datum) : (c.log k i e p0 p1).cageMsgs = c.cageMsgs :=
  Chip.logIn_keeps Chip.cageMsgs (fun _ _ => rfl) c _ k i e p0 p1
@[simp] theorem Chip.err_alerts (c : Chip) (g : Nat) (w : Requester) (k o : Nat) : (c.err g w k o).alerts = c.alerts :=
  Chip.err_keeps Chip.alerts (fun _ _ _ => rfl) c g w k o
@[simp] theorem Chip.log_alerts (c : Chip) (k i e : Nat) (p0 p1 : Datum) : (c.log k i e p0 p1).alerts = c.alerts :=
  Chip.logIn_keeps Chip.alerts (fun _ _ => rfl) c _ k i e p0 p1
@[simp] theorem Chip.err_tokens (c : Chip) (g : Nat) (w : Requester) (k o : Nat) : (c.err g w k o).tokens = c.tokens :=
  Chip.err_keeps Chip.tokens (fun _ _ _ => rfl) c g w k o
@[simp] theorem Chip.log_tokens (c : Chip) (k i e : Nat) (p0 p1 : Datum) : (c.log k i e p0 p1).tokens = c.tokens :=
  Chip.logIn_keeps Chip.tokens (fun _ _ => rfl) c _ k i e p0 p1
@[simp] theorem Chip.err_held (c : Chip) (g : Nat) (w : Requester) (k o : Nat) : (c.err g w k o).held = c.held :=
  Chip.err_keeps Chip.held (fun _ _ _ => rfl) c g w k o
@[simp] theorem Chip.log_held (c : Chip) (k i e : Nat) (p0 p1 : Datum) : (c.log k i e p0 p1).held = c.held :=
  Chip.logIn_keeps Chip.held (fun _ _ => rfl) c _ k i e p0 p1
@[simp] theorem Chip.err_peers (c : Chip) (g : Nat) (w : Requester) (k o : Nat) : (c.err g w k o).peers = c.peers :=
  Chip.err_keeps Chip.peers (fun _ _ _ => rfl) c g w k o
@[simp] theorem Chip.log_peers (c : Chip) (k i e : Nat) (p0 p1 : Datum) : (c.log k i e p0 p1).peers = c.peers :=
  Chip.logIn_keeps Chip.peers (fun _ _ => rfl) c _ k i e p0 p1
@[simp] theorem Chip.err_remote (c : Chip) (g : Nat) (w : Requester) (k o : Nat) : (c.err g w k o).remote = c.remote :=
  Chip.err_keeps Chip.remote (fun _ _ _ => rfl) c g w k o
@[simp] theorem Chip.log_remote (c : Chip) (k i e : Nat) (p0 p1 : Datum) : (c.log k i e p0 p1).remote = c.remote :=
  Chip.logIn_keeps Chip.remote (fun _ _ => rfl) c _ k i e p0 p1
@[simp] theorem Chip.err_sends (c : Chip) (g : Nat) (w : Requester) (k o : Nat) : (c.err g w k o).sends = c.sends :=
  Chip.err_keeps Chip.sends (fun _ _ _ => rfl) c g w k o
@[simp] theorem Chip.log_sends (c : Chip) (k i e : Nat) (p0 p1 : Datum) : (c.log k i e p0 p1).sends = c.sends :=
  Chip.logIn_keeps Chip.sends (fun _ _ => rfl) c _ k i e p0 p1
@[simp] theorem Chip.err_slotTags (c : Chip) (g : Nat) (w : Requester) (k o : Nat) : (c.err g w k o).slotTags = c.slotTags :=
  Chip.err_keeps Chip.slotTags (fun _ _ _ => rfl) c g w k o
@[simp] theorem Chip.log_slotTags (c : Chip) (k i e : Nat) (p0 p1 : Datum) : (c.log k i e p0 p1).slotTags = c.slotTags :=
  Chip.logIn_keeps Chip.slotTags (fun _ _ => rfl) c _ k i e p0 p1
@[simp] theorem Chip.err_home (c : Chip) (g : Nat) (w : Requester) (k o : Nat) : (c.err g w k o).home = c.home :=
  Chip.err_keeps Chip.home (fun _ _ _ => rfl) c g w k o
@[simp] theorem Chip.log_home (c : Chip) (k i e : Nat) (p0 p1 : Datum) : (c.log k i e p0 p1).home = c.home :=
  Chip.logIn_keeps Chip.home (fun _ _ => rfl) c _ k i e p0 p1
@[simp] theorem Chip.err_heldMarks (c : Chip) (g : Nat) (w : Requester) (k o : Nat) : (c.err g w k o).heldMarks = c.heldMarks :=
  Chip.err_keeps Chip.heldMarks (fun _ _ _ => rfl) c g w k o
@[simp] theorem Chip.log_heldMarks (c : Chip) (k i e : Nat) (p0 p1 : Datum) : (c.log k i e p0 p1).heldMarks = c.heldMarks :=
  Chip.logIn_keeps Chip.heldMarks (fun _ _ => rfl) c _ k i e p0 p1
@[simp] theorem Chip.err_acked (c : Chip) (g : Nat) (w : Requester) (k o : Nat) : (c.err g w k o).acked = c.acked :=
  Chip.err_keeps Chip.acked (fun _ _ _ => rfl) c g w k o
@[simp] theorem Chip.log_acked (c : Chip) (k i e : Nat) (p0 p1 : Datum) : (c.log k i e p0 p1).acked = c.acked :=
  Chip.logIn_keeps Chip.acked (fun _ _ => rfl) c _ k i e p0 p1
@[simp] theorem Chip.err_termReplies (c : Chip) (g : Nat) (w : Requester) (k o : Nat) : (c.err g w k o).termReplies = c.termReplies :=
  Chip.err_keeps Chip.termReplies (fun _ _ _ => rfl) c g w k o
@[simp] theorem Chip.log_termReplies (c : Chip) (k i e : Nat) (p0 p1 : Datum) : (c.log k i e p0 p1).termReplies = c.termReplies :=
  Chip.logIn_keeps Chip.termReplies (fun _ _ => rfl) c _ k i e p0 p1
@[simp] theorem Chip.err_time (c : Chip) (g : Nat) (w : Requester) (k o : Nat) : (c.err g w k o).time = c.time :=
  Chip.err_keeps Chip.time (fun _ _ _ => rfl) c g w k o
@[simp] theorem Chip.log_time (c : Chip) (k i e : Nat) (p0 p1 : Datum) : (c.log k i e p0 p1).time = c.time :=
  Chip.logIn_keeps Chip.time (fun _ _ => rfl) c _ k i e p0 p1
@[simp] theorem Chip.err_hdf (c : Chip) (g : Nat) (w : Requester) (k o : Nat) : (c.err g w k o).hdf = c.hdf :=
  Chip.err_keeps Chip.hdf (fun _ _ _ => rfl) c g w k o
@[simp] theorem Chip.log_hdf (c : Chip) (k i e : Nat) (p0 p1 : Datum) : (c.log k i e p0 p1).hdf = c.hdf :=
  Chip.logIn_keeps Chip.hdf (fun _ _ => rfl) c _ k i e p0 p1
@[simp] theorem Chip.err_nvm (c : Chip) (g : Nat) (w : Requester) (k o : Nat) : (c.err g w k o).nvm = c.nvm :=
  Chip.err_keeps Chip.nvm (fun _ _ _ => rfl) c g w k o
@[simp] theorem Chip.log_nvm (c : Chip) (k i e : Nat) (p0 p1 : Datum) : (c.log k i e p0 p1).nvm = c.nvm :=
  Chip.logIn_keeps Chip.nvm (fun _ _ => rfl) c _ k i e p0 p1
@[simp] theorem Chip.err_power (c : Chip) (g : Nat) (w : Requester) (k o : Nat) : (c.err g w k o).power = c.power :=
  Chip.err_keeps Chip.power (fun _ _ _ => rfl) c g w k o
@[simp] theorem Chip.log_power (c : Chip) (k i e : Nat) (p0 p1 : Datum) : (c.log k i e p0 p1).power = c.power :=
  Chip.logIn_keeps Chip.power (fun _ _ => rfl) c _ k i e p0 p1
@[simp] theorem Chip.err_mcSeen (c : Chip) (g : Nat) (w : Requester) (k o : Nat) : (c.err g w k o).mcSeen = c.mcSeen :=
  Chip.err_keeps Chip.mcSeen (fun _ _ _ => rfl) c g w k o
@[simp] theorem Chip.log_mcSeen (c : Chip) (k i e : Nat) (p0 p1 : Datum) : (c.log k i e p0 p1).mcSeen = c.mcSeen :=
  Chip.logIn_keeps Chip.mcSeen (fun _ _ => rfl) c _ k i e p0 p1
@[simp] theorem Chip.err_canary (c : Chip) (g : Nat) (w : Requester) (k o : Nat) : (c.err g w k o).canary = c.canary :=
  Chip.err_keeps Chip.canary (fun _ _ _ => rfl) c g w k o
@[simp] theorem Chip.err_tap (c : Chip) (g : Nat) (w : Requester) (k o : Nat) : (c.err g w k o).tap = c.tap :=
  Chip.err_keeps Chip.tap (fun _ _ _ => rfl) c g w k o
@[simp] theorem Chip.log_tap (c : Chip) (k i e : Nat) (p0 p1 : Datum) : (c.log k i e p0 p1).tap = c.tap :=
  Chip.logIn_keeps Chip.tap (fun _ _ => rfl) c _ k i e p0 p1
@[simp] theorem Chip.err_traceSync (c : Chip) (g : Nat) (w : Requester) (k o : Nat) : (c.err g w k o).traceSync = c.traceSync :=
  Chip.err_keeps Chip.traceSync (fun _ _ _ => rfl) c g w k o
@[simp] theorem Chip.log_traceSync (c : Chip) (k i e : Nat) (p0 p1 : Datum) : (c.log k i e p0 p1).traceSync = c.traceSync :=
  Chip.logIn_keeps Chip.traceSync (fun _ _ => rfl) c _ k i e p0 p1
@[simp] theorem Chip.err_fresh (c : Chip) (g : Nat) (w : Requester) (k o : Nat) : (c.err g w k o).fresh = c.fresh :=
  Chip.err_keeps Chip.fresh (fun _ _ _ => rfl) c g w k o
@[simp] theorem Chip.log_fresh (c : Chip) (k i e : Nat) (p0 p1 : Datum) : (c.log k i e p0 p1).fresh = c.fresh :=
  Chip.logIn_keeps Chip.fresh (fun _ _ => rfl) c _ k i e p0 p1
@[simp] theorem Chip.err_pcie (c : Chip) (g : Nat) (w : Requester) (k o : Nat) : (c.err g w k o).pcie = c.pcie :=
  Chip.err_keeps Chip.pcie (fun _ _ _ => rfl) c g w k o
@[simp] theorem Chip.log_pcie (c : Chip) (k i e : Nat) (p0 p1 : Datum) : (c.log k i e p0 p1).pcie = c.pcie :=
  Chip.logIn_keeps Chip.pcie (fun _ _ => rfl) c _ k i e p0 p1
@[simp] theorem Chip.err_out (c : Chip) (g : Nat) (w : Requester) (k o : Nat) : (c.err g w k o).out = c.out :=
  Chip.err_keeps Chip.out (fun _ _ _ => rfl) c g w k o
@[simp] theorem Chip.log_out (c : Chip) (k i e : Nat) (p0 p1 : Datum) : (c.log k i e p0 p1).out = c.out :=
  Chip.logIn_keeps Chip.out (fun _ _ => rfl) c _ k i e p0 p1
@[simp] theorem Chip.err_asserted (c : Chip) (g : Nat) (w : Requester) (k o : Nat) : (c.err g w k o).asserted = c.asserted :=
  Chip.err_keeps Chip.asserted (fun _ _ _ => rfl) c g w k o
@[simp] theorem Chip.log_asserted (c : Chip) (k i e : Nat) (p0 p1 : Datum) : (c.log k i e p0 p1).asserted = c.asserted :=
  Chip.logIn_keeps Chip.asserted (fun _ _ => rfl) c _ k i e p0 p1
@[simp] theorem Chip.err_pins (c : Chip) (g : Nat) (w : Requester) (k o : Nat) : (c.err g w k o).pins = c.pins :=
  Chip.err_keeps Chip.pins (fun _ _ _ => rfl) c g w k o
@[simp] theorem Chip.log_pins (c : Chip) (k i e : Nat) (p0 p1 : Datum) : (c.log k i e p0 p1).pins = c.pins :=
  Chip.logIn_keeps Chip.pins (fun _ _ => rfl) c _ k i e p0 p1

end Sys2Proof.Machine
end

