-- ==== Sys2Proof/Laws/Sparse.lean ====
section
/-! SUPPORT. Sparse tables: a read after a write, the canonical form of memory, and that every operation over memory keeps
it. -/
namespace Sys2Proof.Machine

theorem lookup_sput {α : Type} (m : Sparse α) (k j : Nat) (v : α) :
    (sput k v m).lookup j = if j = k then some v else m.lookup j := by
  induction m with
  | nil =>
    by_cases h : j = k
    · simp [sput, h]
    · have : (j == k) = false := by simpa using h
      simp [sput, List.lookup, h, this]
  | cons e t ih =>
    obtain ⟨i, w⟩ := e
    have hjk : j ≠ k → (j == k) = false := fun h => by simpa using h
    unfold sput
    split
    · by_cases h : j = k
      · simp [List.lookup, h]
      · simp [List.lookup, h, hjk h]
    · split
      · rename_i h1 h2
        subst h2
        by_cases h : j = k
        · simp [List.lookup, h]
        · simp [List.lookup, h, hjk h]
      · rename_i h1 h2
        by_cases hj : j = i
        · subst hj
          simp [List.lookup, Ne.symm h2]
        · have : (j == i) = false := by simpa using hj
          simp only [List.lookup, this, ih]

theorem lookup_sdel {α : Type} (m : Sparse α) (k j : Nat) :
    (sdel m k).lookup j = if j = k then none else m.lookup j := by
  induction m with
  | nil => simp [sdel]
  | cons e t ih =>
    obtain ⟨i, w⟩ := e
    unfold sdel at ih ⊢
    rw [List.filter_cons]
    by_cases hi : i = k
    · simp only [hi, ne_eq, not_true_eq_false, decide_false, Bool.false_eq_true, if_false, ih]
      by_cases hj : j = k
      · simp [hj]
      · have : (j == k) = false := by simpa using hj
        simp [hj, List.lookup, this]
    · simp only [ne_eq, hi, not_false_eq_true, decide_true, if_true, List.lookup]
      by_cases hj : j = i
      · subst hj
        simp [hi]
      · have : (j == i) = false := by simpa using hj
        simp only [this, ih]

/-- A table reads what was written at a key, and as before elsewhere. -/
theorem sget_sset {α : Type} [DecidableEq α] (m : Sparse α) (k j : Nat) (v d : α) :
    sget (sset m k v d) j d = if j = k then v else sget m j d := by
  unfold sget sset
  split
  · rename_i h
    rw [lookup_sdel]
    split <;> simp [*]
  · rw [lookup_sput]
    split <;> simp
@[simp] theorem sget_sset_same {α : Type} [DecidableEq α] (m : Sparse α) (k : Nat) (v d : α) :
    sget (sset m k v d) k d = v := by simp [sget_sset]
/-- A write at a key is not seen at another, whatever each reads by default. -/
theorem lookup_sset_other {α : Type} [DecidableEq α] (m : Sparse α) {k j : Nat} (v d : α) (h : j ≠ k) :
    (sset m k v d).lookup j = m.lookup j := by
  unfold sset
  split
  · simp [lookup_sdel, h]
  · simp [lookup_sput, h]
theorem sget_sset_other {α : Type} [DecidableEq α] (m : Sparse α) {k j : Nat} (v d : α) (h : j ≠ k) :
    sget (sset m k v d) j d = sget m j d := by simp [sget_sset, h]

@[simp] theorem Chip.hart_setHart (c : Chip) (h : Hart) (x : HartSt) : (c.setHart h x).hart h = x := by
  simp [Chip.hart, Chip.setHart]
@[simp] theorem Chip.hart_modHart (c : Chip) (h : Hart) (f : HartSt → HartSt) : (c.modHart h f).hart h = f (c.hart h) := by
  simp [Chip.modHart]
theorem Chip.hart_setHart_other (c : Chip) {h g : Hart} (x : HartSt) (hg : g ≠ h) : (c.setHart h x).hart g = c.hart g := by
  unfold Chip.hart Chip.setHart
  exact sget_sset_other _ _ _ (fun e => hg (BitVec.eq_of_toNat_eq e))
theorem Chip.hart_modHart_other (c : Chip) {h g : Hart} (f : HartSt → HartSt) (hg : g ≠ h) :
    (c.modHart h f).hart g = c.hart g := c.hart_setHart_other _ hg
@[simp] theorem Chip.reg_setReg (c : Chip) (o : Nat) (v : Datum) : (c.setReg o v).reg o = v := by simp [Chip.reg, Chip.setReg]
theorem Chip.reg_setReg_other (c : Chip) {o p : Nat} (v : Datum) (hp : p ≠ o) : (c.setReg o v).reg p = c.reg p := by
  simp [Chip.reg, Chip.setReg, sget, lookup_sset_other _ _ _ hp]

/-- A byte reads as it was written, and every other byte as before. -/
theorem cellGet_cellSet (m : List Host.Cell) (k j : Nat) (b : Byte) :
    cellGet (cellSet m k b) j = if j = k then b else cellGet m j := sget_sset m k j b 0

/-- The canonical form: keys strictly rising, and no value equal to the default. -/
theorem wf_iff (m : List Host.Cell) :
    Memory.wf m = true ↔ m.Pairwise (fun a b => a.1 < b.1) ∧ ∀ e ∈ m, e.2 ≠ 0 := by
  induction m with
  | nil => simp [Memory.wf]
  | cons e t ih =>
    cases t with
    | nil => simp [Memory.wf]
    | cons f t =>
      simp only [Memory.wf, Bool.and_eq_true, decide_eq_true_eq, ih, List.pairwise_cons, List.forall_mem_cons]
      constructor
      · rintro ⟨⟨h1, h2⟩, ⟨h3, h4⟩, h5, h6⟩
        exact ⟨⟨⟨h1, fun a ha => Nat.lt_trans h1 (h3 a ha)⟩, h3, h4⟩, h2, h5, h6⟩
      · rintro ⟨⟨⟨h1, _⟩, h3, h4⟩, h2, h5, h6⟩
        exact ⟨⟨h1, h2⟩, ⟨h3, h4⟩, h5, h6⟩

theorem mem_sput {α : Type} {m : Sparse α} {k : Nat} {v : α} {e : Nat × α} (h : e ∈ sput k v m) : e = (k, v) ∨ e ∈ m := by
  induction m with
  | nil => simpa [sput] using h
  | cons f t ih =>
    obtain ⟨j, w⟩ := f
    unfold sput at h
    split at h
    · simpa using h
    · split at h
      · rcases List.mem_cons.1 h with h | h
        · exact .inl h
        · exact .inr (List.mem_cons_of_mem _ h)
      · rcases List.mem_cons.1 h with h | h
        · exact .inr (h ▸ List.mem_cons_self)
        · rcases ih h with h | h
          · exact .inl h
          · exact .inr (List.mem_cons_of_mem _ h)

theorem pairwise_sput {α : Type} {m : Sparse α} (k : Nat) (v : α) (h : m.Pairwise (fun a b => a.1 < b.1)) :
    (sput k v m).Pairwise (fun a b => a.1 < b.1) := by
  induction m with
  | nil => simp [sput]
  | cons e t ih =>
    obtain ⟨j, w⟩ := e
    obtain ⟨h1, h2⟩ := List.pairwise_cons.1 h
    unfold sput
    split
    · rename_i hk
      refine List.pairwise_cons.2 ⟨?_, h⟩
      intro a ha
      rcases List.mem_cons.1 ha with rfl | ha
      · exact hk
      · exact Nat.lt_trans hk (h1 a ha)
    · split
      · rename_i hk hj
        subst hj
        exact List.pairwise_cons.2 ⟨h1, h2⟩
      · rename_i hk hj
        refine List.pairwise_cons.2 ⟨?_, ih h2⟩
        intro a ha
        rcases mem_sput ha with rfl | ha
        · simp only
          omega
        · exact h1 a ha

/-- Writing a byte keeps the canonical form. -/
theorem wf_cellSet {m : List Host.Cell} (k : Nat) (b : Byte) (h : Memory.wf m = true) : Memory.wf (cellSet m k b) = true := by
  rw [wf_iff] at h ⊢
  unfold cellSet sset
  split
  · exact ⟨h.1.filter _, fun e he => h.2 e (List.mem_filter.1 he).1⟩
  · refine ⟨pairwise_sput k b h.1, fun e he => ?_⟩
    rcases mem_sput he with rfl | he
    · assumption
    · exact h.2 e he
/-- Writing several bytes keeps it. -/
theorem wf_cellsSet {m : List Host.Cell} (l : List Host.Cell) (h : Memory.wf m = true) : Memory.wf (cellsSet m l) = true := by
  unfold cellsSet
  induction l generalizing m with
  | nil => exact h
  | cons e t ih => exact ih (wf_cellSet e.1 e.2 h)
/-- Removing cells keeps it. -/
theorem wf_filter {m : List Host.Cell} (p : Host.Cell → Bool) (h : Memory.wf m = true) : Memory.wf (m.filter p) = true := by
  rw [wf_iff] at h ⊢
  exact ⟨h.1.filter _, fun e he => h.2 e (List.mem_filter.1 he).1⟩
/-- Replacing a line keeps it. -/
theorem wf_putLine {m : List Host.Cell} (l : Nat) (old : List Host.Cell) (h : Memory.wf m = true) :
    Memory.wf (putLine m l old) = true := wf_cellsSet _ (wf_filter _ h)

/-- Losing reservations writes no memory. -/
theorem loseResv_mem (c : Chip) (l : Nat) (e : Option Hart) : (c.loseResv l e).mem = c.mem := by
  unfold Chip.loseResv
  exact foldl_keeps Chip.mem _ (fun b (e : Nat × HartSt) => Chip.modHart_mem b (BitVec.ofNat 11 e.1) _) _ _
/-- A fold keeps the canonical form where each of its steps does. -/
theorem wf_foldl {α : Type} (f : Chip → α → Chip) (hf : ∀ c a, Memory.wf c.mem = true → Memory.wf (f c a).mem = true)
    (l : List α) {c : Chip} (h : Memory.wf c.mem = true) : Memory.wf (l.foldl f c).mem = true := by
  induction l generalizing c with
  | nil => exact h
  | cons a t ih => exact ih (hf c a h)
/-- Poisoning a line, or a word of a copy, keeps it (R77, R410). -/
theorem wf_poisonLine {c : Chip} (l : Nat) (h : Memory.wf c.mem = true) : Memory.wf (c.poisonLine l).mem = true :=
  wf_cellsSet _ h
theorem wf_poisonCopy {c : Chip} (k : CacheKind) (u p : Nat) (h : Memory.wf c.mem = true) :
    Memory.wf (c.poisonCopy k u p).mem = true := by
  unfold Chip.poisonCopy
  exact wf_cellSet (tagBase + p / 8) poisonTag h
theorem arrayLog_mem (c : Chip) (src : Nat × Nat) (place n : Nat) (a d : Datum) : (c.arrayLog src place n a d).mem = c.mem := by
  unfold Chip.arrayLog
  split <;> exact Chip.log_mem _ _ _ _ _ _
/-- An error met in HBM keeps it (R409, R410). -/
theorem wf_lineError {c : Chip} (tag : Bool) (i n : Nat) (h : Memory.wf c.mem = true) :
    Memory.wf (c.lineError tag i n).mem = true := by
  unfold Chip.lineError
  extract_lets m pa lines c1 garble corrected detected
  have hd : ∀ d : Chip, Memory.wf d.mem = true → Memory.wf (detected d).mem = true := fun d hd =>
    wf_foldl _ (fun _ _ hb => wf_poisonLine _ hb) lines (by rw [Chip.log_mem]; exact hd)
  have hg : ∀ d : Chip, Memory.wf d.mem = true → Memory.wf (garble d).mem = true := fun d hd =>
    wf_foldl _ (fun _ _ hb => wf_cellsSet _ hb) _ hd
  have hc : ∀ d : Chip, Memory.wf d.mem = true → Memory.wf (corrected d).mem = true := fun d hd => by
    simp only [corrected, Chip.tick_mem, Chip.log_mem, Chip.err_mem, hd]
  have h1 : Memory.wf c1.mem = true := h
  split
  · exact hc _ h1
  · split
    · exact hd _ h1
    · split
      · exact hd _ h1
      · split
        · exact hc _ (hg _ h1)
        · exact hg _ h1
/-- A fault met keeps it (R29, R36). -/
theorem wf_meet {c : Chip} (e : Latent) (h : Memory.wf c.mem = true) : Memory.wf (c.meet e).mem = true := by
  have ha : ∀ p src place a d, Memory.wf ((c.forget p).arrayLog src place e.n a d).mem = true := fun p src place a d => by
    rw [arrayLog_mem]
    exact h
  unfold Chip.meet
  split
  · exact wf_lineError _ _ _ h
  · exact wf_lineError _ _ _ h
  · dsimp only
    split
    · exact ha _ _ _ _ _
    · exact wf_poisonCopy _ _ _ (ha _ _ _ _ _)
  · dsimp only
    split
    · exact ha _ _ _ _ _
    · exact wf_foldl _ (fun _ _ hb => wf_poisonLine _ hb) _ (ha _ _ _ _ _)
  · dsimp only
    split
    · exact ha _ _ _ _ _
    · exact wf_cellSet (tagBase + _ / 8) poisonTag (ha _ _ _ _ _)
  · exact h
theorem wf_meetAll {c : Chip} (sel : Place → Bool) (h : Memory.wf c.mem = true) : Memory.wf (c.meetAll sel).mem = true := by
  unfold Chip.meetAll
  split
  · exact h
  · exact wf_foldl _ (fun _ e hb => wf_meet e hb) _ h
@[simp] theorem forgetAll_mem (c : Chip) (sel : Place → Bool) : (c.forgetAll sel).mem = c.mem := by
  unfold Chip.forgetAll
  split <;> rfl
/-- A change of the caches keeps it: recalls, invalidations and dropped copies among them (R358, R360, R379). -/
theorem wf_setCaches {c : Chip} (y : Caches) (h : Memory.wf c.mem = true) : Memory.wf (c.setCaches y).mem = true := by
  unfold Chip.setCaches
  rw [forgetAll_mem]
  exact wf_meetAll _ h
theorem wf_recall {c : Chip} (l : Nat) (h : Memory.wf c.mem = true) : Memory.wf (c.recall l).mem = true := wf_setCaches _ h
theorem wf_invalidate {c : Chip} (l : Nat) (h : Memory.wf c.mem = true) : Memory.wf (c.invalidate l).mem = true :=
  wf_setCaches _ h
theorem wf_setDropped {c : Chip} (l : Nat) (y : Caches) (h : Memory.wf c.mem = true) :
    Memory.wf (c.setDropped l y).mem = true := by
  unfold Chip.setDropped
  split
  · rw [forgetAll_mem]
    exact wf_putLine _ _ h
  · exact wf_setCaches _ h
/-- What a performance counter cannot change: the module but for its page registers. -/
theorem pmc_keeps {β : Type} (p : Chip → β) (hp : ∀ d o v, p (Chip.setReg d o v) = p d) (c : Chip) (g : Hart) (ev n : Nat) :
    p (c.pmc g ev n) = p c := by
  unfold Chip.pmc
  split
  · rfl
  · exact foldl_keeps p _ (fun d i => by dsimp only; split <;> first | rfl | exact hp _ _ _) _ _
theorem countMiss_keeps {β : Type} (p : Chip → β) (hp : ∀ d o v, p (Chip.setReg d o v) = p d) (c : Chip) (g : Hart)
    (k : CacheKind) (l : Nat) : p (c.countMiss g k l) = p c := by
  unfold Chip.countMiss
  split
  · rfl
  · dsimp only
    split <;> split <;> simp only [pmc_keeps p hp]
theorem countMiss_mem (c : Chip) (g : Hart) (k : CacheKind) (l : Nat) : (c.countMiss g k l).mem = c.mem :=
  countMiss_keeps Chip.mem (fun _ _ _ => rfl) c g k l
/-- A load or a fetch of a core keeps it (R352). -/
theorem wf_coreRead {c : Chip} (g : Hart) (k : CacheKind) (p : Nat) (tags pf : Bool) (h : Memory.wf c.mem = true) :
    Memory.wf (c.coreRead g k p tags pf).mem = true :=
  wf_meetAll _ (wf_setCaches _ (by rw [countMiss_mem]; exact h))
/-- A store performed by a core keeps it (R357). -/
theorem wf_coreWrite {c : Chip} (g : Hart) (l : List Host.Cell) (pf : Bool) (h : Memory.wf c.mem = true) :
    Memory.wf (c.coreWrite g l pf).mem = true := by
  unfold Chip.coreWrite Chip.overwritten
  refine wf_cellsSet _ ?_
  rw [forgetAll_mem]
  refine wf_foldl _ (fun d k hd => ?_) _ h
  rw [loseResv_mem]
  exact wf_setCaches _ (wf_setCaches _ (by rw [countMiss_mem]; exact hd))
/-- A write by an agent at memory keeps it (R360, R403–R405). -/
theorem wf_agentWrite {c : Chip} (l : List Host.Cell) (by_ : Option Hart) (h : Memory.wf c.mem = true) :
    Memory.wf (c.agentWrite l by_).mem = true := by
  unfold Chip.agentWrite
  extract_lets c1 data c2 c3 tagged
  have h1 : Memory.wf c1.mem = true := wf_foldl _ (fun d k hd => by rw [loseResv_mem]; exact wf_invalidate _ hd) _ h
  have h2 : Memory.wf c2.mem = true := by
    show Memory.wf (if _ then _ else _ : Chip).mem = true
    split
    · exact h1
    · refine wf_foldl _ (fun d k hd => ?_) _ h1
      dsimp only
      split
      · exact hd
      · split
        · rw [forgetAll_mem]
          exact hd
        · exact wf_meetAll _ hd
  refine wf_foldl _ (fun d k hd => ?_) _ (wf_cellsSet _ h2)
  split
  · exact hd
  · exact wf_setCaches _ hd
/-- Reading a line at memory keeps it. -/
theorem wf_readTags {c : Chip} (l : Nat) (h : Memory.wf c.mem = true) : Memory.wf (c.readTags l).mem = true := by
  unfold Chip.readTags
  split
  · exact h
  · exact wf_meetAll _ (wf_setCaches _ h)
theorem wf_readLine {c : Chip} (l : Nat) (tags : Bool) (h : Memory.wf c.mem = true) :
    Memory.wf (c.readLine l tags).mem = true := by
  unfold Chip.readLine
  dsimp only
  split
  · exact wf_readTags _ (wf_meetAll _ h)
  · exact wf_meetAll _ h
theorem wf_agentRead {c : Chip} (l : Nat) (tags : Bool) (h : Memory.wf c.mem = true) :
    Memory.wf (c.agentRead l tags).mem = true := wf_readLine _ _ (wf_recall _ h)
/-- A unit's read and its write keep it (R672). -/
theorem wf_unitRead {c : Chip} (p : Nat) (tags : Bool) (h : Memory.wf c.mem = true) :
    Memory.wf (c.unitRead p tags).1.mem = true := by
  unfold Chip.unitRead
  split
  · exact wf_agentRead _ _ h
  · rw [Chip.unpopulated, Chip.err_mem]
    exact h
theorem wf_unitWrite {c : Chip} (p : Nat) (w : Word) (b : Option Hart) (h : Memory.wf c.mem = true) :
    Memory.wf (c.unitWrite p w b).mem = true := by
  unfold Chip.unitWrite
  split
  · exact wf_agentWrite _ _ h
  · rw [Chip.unpopulated, Chip.err_mem]
    exact h
/-- Reset memory has the form. -/
theorem wf_reset : Memory.wf Chip.reset.mem = true := rfl

end Sys2Proof.Machine
end

