-- ==== Sys2Proof/Laws/Bits.lean ====
section
/-! SUPPORT. Bit fields: what a field written reads as, and that other fields keep their values; the same of a page
register's fields. -/
namespace Sys2Proof.Machine

theorem fld_lt (d : Datum) (hi lo : Nat) : fld d hi lo < 2 ^ (hi - lo + 1) := Nat.mod_lt _ (Nat.two_pow_pos _)

/-- A bit of a number with a field replaced. -/
theorem testBit_setNat (n lo w v i : Nat) :
    (n - (n >>> lo) % 2 ^ w * 2 ^ lo + v % 2 ^ w * 2 ^ lo).testBit i =
      if lo ≤ i ∧ i < lo + w then v.testBit (i - lo) else n.testBit i := by
  have h1 : n = n % 2 ^ lo + 2 ^ lo * ((n >>> lo) % 2 ^ w + 2 ^ w * (n >>> (lo + w))) := by
    conv => lhs; rw [← Nat.mod_add_div n (2 ^ lo)]
    congr 2
    rw [← Nat.shiftRight_eq_div_pow]
    conv => lhs; rw [← Nat.mod_add_div (n >>> lo) (2 ^ w)]
    rw [← Nat.shiftRight_eq_div_pow, ← Nat.shiftRight_add]
  have h2 : n - (n >>> lo) % 2 ^ w * 2 ^ lo + v % 2 ^ w * 2 ^ lo =
      2 ^ lo * (2 ^ w * (n >>> (lo + w)) + v % 2 ^ w) + n % 2 ^ lo := by
    have h3 : n = n % 2 ^ lo + ((n >>> lo) % 2 ^ w * 2 ^ lo + 2 ^ lo * (2 ^ w * (n >>> (lo + w)))) := by
      rw [Nat.mul_comm _ (2 ^ lo), ← Nat.mul_add]
      exact h1
    have h4 : n - (n >>> lo) % 2 ^ w * 2 ^ lo = n % 2 ^ lo + 2 ^ lo * (2 ^ w * (n >>> (lo + w))) := by omega
    rw [h4, Nat.mul_add, Nat.mul_comm (v % 2 ^ w)]
    omega
  rw [h2, Nat.testBit_two_pow_mul_add _ (Nat.mod_lt _ (Nat.two_pow_pos _)), Nat.testBit_mod_two_pow]
  by_cases hi : i < lo
  · have : ¬(lo ≤ i ∧ i < lo + w) := by omega
    rw [if_pos hi, if_neg this]
    simp [hi]
  · rw [if_neg hi, Nat.testBit_two_pow_mul_add _ (Nat.mod_lt _ (Nat.two_pow_pos _)), Nat.testBit_mod_two_pow]
    by_cases hw : i < lo + w
    · have ha : lo ≤ i ∧ i < lo + w := by omega
      have hb : i - lo < w := by omega
      rw [if_pos ha, if_pos hb]
      simp [hb]
    · have ha : ¬(lo ≤ i ∧ i < lo + w) := by omega
      have hb : ¬(i - lo < w) := by omega
      rw [if_neg ha, if_neg hb, Nat.testBit_shiftRight]
      congr 1
      omega

/-- A bit of a datum with a field written. -/
theorem bit_setFld (d : Datum) {hi lo : Nat} (v i : Nat) (h1 : lo ≤ hi) (h2 : hi < 64) :
    bit (setFld d hi lo v) i = if lo ≤ i ∧ i ≤ hi then v.testBit (i - lo) else bit d i := by
  unfold bit setFld fld
  rw [BitVec.toNat_ofNat, Nat.testBit_mod_two_pow, testBit_setNat]
  have hw : lo + (hi - lo + 1) = hi + 1 := by omega
  rw [hw]
  by_cases hc : lo ≤ i ∧ i ≤ hi
  · have hd : lo ≤ i ∧ i < hi + 1 := by omega
    have he : i < 64 := by omega
    simp [hc, hd, he]
  · have hd : ¬(lo ≤ i ∧ i < hi + 1) := by omega
    rw [if_neg hc, if_neg hd]
    by_cases he : i < 64
    · simp [he]
    · have : d.toNat.testBit i = false := Nat.testBit_lt_two_pow (Nat.lt_of_lt_of_le d.isLt (Nat.pow_le_pow_right (by omega) (by omega)))
      simp [this]

theorem testBit_fld (d : Datum) {hi lo : Nat} (i : Nat) :
    (fld d hi lo).testBit i = (decide (i < hi - lo + 1) && bit d (lo + i)) := by
  unfold fld bit
  rw [Nat.testBit_mod_two_pow, Nat.testBit_shiftRight]

/-- A field written reads as what was written, in its width. -/
theorem fld_setFld (d : Datum) {hi lo : Nat} (v : Nat) (h1 : lo ≤ hi) (h2 : hi < 64) :
    fld (setFld d hi lo v) hi lo = v % 2 ^ (hi - lo + 1) := by
  apply Nat.eq_of_testBit_eq
  intro i
  rw [testBit_fld, Nat.testBit_mod_two_pow, bit_setFld d v _ h1 h2]
  by_cases hi' : i < hi - lo + 1
  · have : lo ≤ lo + i ∧ lo + i ≤ hi := by omega
    simp [hi', this]
  · simp [hi']
/-- Another field keeps its value. -/
theorem fld_setFld_other (d : Datum) {hi lo : Nat} (v : Nat) {a b : Nat} (h1 : lo ≤ hi) (h2 : hi < 64) (h3 : b ≤ a)
    (h4 : a < lo ∨ hi < b) : fld (setFld d hi lo v) a b = fld d a b := by
  apply Nat.eq_of_testBit_eq
  intro i
  rw [testBit_fld, testBit_fld, bit_setFld d v _ h1 h2]
  by_cases hi' : i < a - b + 1
  · have : ¬(lo ≤ b + i ∧ b + i ≤ hi) := by omega
    rw [if_neg this]
  · simp [hi']

/-- One bit as a field. -/
theorem fld_bit (d : Datum) (i : Nat) : fld d i i = b2n (bit d i) := by
  unfold fld bit b2n
  rw [Nat.testBit_eq_decide_div_mod_eq, Nat.shiftRight_eq_div_pow]
  have := Nat.mod_two_eq_zero_or_one (d.toNat / 2 ^ i)
  have hs : i - i + 1 = 1 := by omega
  rw [hs]
  rcases this with h | h <;> simp [h]
theorem bit_eq_fld (d : Datum) (i : Nat) : bit d i = decide (fld d i i = 1) := by
  rw [fld_bit]
  cases bit d i <;> rfl

theorem Chip.rf_setRf (c : Chip) (o : Nat) {hi lo : Nat} (v : Nat) (h1 : lo ≤ hi) (h2 : hi < 64) :
    (c.setRf o hi lo v).rf o hi lo = v % 2 ^ (hi - lo + 1) := by
  simp [Chip.rf, Chip.setRf, fld_setFld _ _ h1 h2]
theorem Chip.rf_setRf_field (c : Chip) (o : Nat) {hi lo : Nat} (v : Nat) {a b : Nat} (h1 : lo ≤ hi) (h2 : hi < 64) (h3 : b ≤ a)
    (h4 : a < lo ∨ hi < b) : (c.setRf o hi lo v).rf o a b = c.rf o a b := by
  simp [Chip.rf, Chip.setRf, fld_setFld_other _ _ h1 h2 h3 h4]
theorem Chip.reg_setRf_other (c : Chip) {o p : Nat} (hi lo v : Nat) (hp : p ≠ o) : (c.setRf o hi lo v).reg p = c.reg p :=
  Chip.reg_setReg_other c _ hp
theorem Chip.rf_setReg_other (c : Chip) {o p : Nat} (v : Datum) (hp : p ≠ o) (a b : Nat) : (c.setReg o v).rf p a b = c.rf p a b := by
  simp [Chip.rf, Chip.reg_setReg_other c v hp]
theorem Chip.rf_setRf_other (c : Chip) {o p : Nat} (hi lo v : Nat) (hp : p ≠ o) (a b : Nat) :
    (c.setRf o hi lo v).rf p a b = c.rf p a b := Chip.rf_setReg_other c _ hp a b

/-- An error recorded in a page changes that page's IRQ_STATUS, ERR_FIRST and ERR_COUNT alone. -/
theorem Chip.err_reg_other (c : Chip) {page o : Nat} (who : Requester) (code off : Nat) (h1 : o ≠ page + 0x28)
    (h2 : o ≠ page + 0x40) (h3 : o ≠ page + 0x48) : (c.err page who code off).reg o = c.reg o := by
  unfold Chip.err
  extract_lets n c1 c2
  have e1 : c1.reg o = c.reg o := Chip.reg_setRf_other c _ _ _ h3
  have e2 : c2.reg o = c.reg o := (Chip.reg_setReg_other c1 _ h1).trans e1
  split
  · exact e2
  · exact (Chip.reg_setReg_other c2 _ h2).trans e2

end Sys2Proof.Machine
end

