-- ==== Sys2Proof/Laws/Memory.lean ====
section
/-! SUPPORT. Words of memory: a word written reads back, and every other word keeps its value. -/
namespace Sys2Proof.Machine

/-- The bytes of a datum, lowest first, give it back (R10). -/
theorem dat_bytes (d : Datum) : dat (ofBytes ((List.range 8).map (fun i => d.extractLsb' (8 * i) 8))) = d := by
  have h8 : List.range 8 = [0, 1, 2, 3, 4, 5, 6, 7] := by decide
  apply BitVec.eq_of_toNat_eq
  have := d.isLt
  simp only [h8, List.map, ofBytes, dat, BitVec.extractLsb'_toNat, Nat.shiftRight_eq_div_pow, BitVec.toNat_ofNat]
  omega

theorem cellGet_append (m : List Host.Cell) (l : List Host.Cell) (k : Nat) (b : Byte) (j : Nat) :
    cellGet (cellsSet m (l ++ [(k, b)])) j = if j = k then b else cellGet (cellsSet m l) j := by
  unfold cellsSet
  rw [List.foldl_append]
  exact cellGet_cellSet _ k j b

/-- A word written at an aligned address of DRAM reads back. -/
theorem memWord_write (m : List Host.Cell) {p : Nat} (w : Word) (hp : p < 2 ^ 38) :
    memWord (cellsSet m (wordCells p w)) p = w := by
  have h8 : List.range 8 = [0, 1, 2, 3, 4, 5, 6, 7] := by decide
  have ht : ∀ i, i < 8 → p + i ≠ tagBase + p / 8 := by intro i hi; unfold tagBase; omega
  have hd : ∀ i, i < 8 → cellGet (cellsSet m (wordCells p w)) (p + i) = w.dat.extractLsb' (8 * i) 8 := by
    intro i hi
    unfold wordCells
    rw [cellGet_append, if_neg (ht i hi)]
    have : i = 0 ∨ i = 1 ∨ i = 2 ∨ i = 3 ∨ i = 4 ∨ i = 5 ∨ i = 6 ∨ i = 7 := by omega
    rcases this with rfl | rfl | rfl | rfl | rfl | rfl | rfl | rfl <;>
      simp [h8, cellsSet, cellGet_cellSet]
  unfold memWord
  have h1 : cellGet (cellsSet m (wordCells p w)) (tagBase + p / 8) = w.tag := by
    unfold wordCells
    rw [cellGet_append, if_pos rfl]
  have h2 : (List.range 8).map (fun i => cellGet (cellsSet m (wordCells p w)) (p + i)) =
      (List.range 8).map (fun i => w.dat.extractLsb' (8 * i) 8) := by
    apply List.map_congr_left
    intro i hi
    exact hd i (List.mem_range.mp hi)
  rw [h1, h2, dat_bytes]

/-- A cell no entry names keeps its value. -/
theorem cellGet_cellsSet_other (m : List Host.Cell) (l : List Host.Cell) (j : Nat) (h : ∀ e ∈ l, e.1 ≠ j) :
    cellGet (cellsSet m l) j = cellGet m j := by
  unfold cellsSet
  induction l generalizing m with
  | nil => rfl
  | cons e t ih =>
    rw [List.foldl_cons, ih _ (fun e he => h e (List.mem_cons_of_mem _ he)), cellGet_cellSet,
      if_neg (fun hj => h e List.mem_cons_self hj.symm)]

/-- The keys of a word's cells. -/
theorem wordCells_key {p : Nat} {w : Word} {e : Host.Cell} (he : e ∈ wordCells p w) :
    (p ≤ e.1 ∧ e.1 < p + 8) ∨ e.1 = tagBase + p / 8 := by
  unfold wordCells at he
  rcases List.mem_append.mp he with h | h
  · obtain ⟨i, hi, rfl⟩ := List.mem_map.mp h
    have := List.mem_range.mp hi
    left
    simp only
    omega
  · right
    rw [List.mem_singleton] at h
    rw [h]

/-- Another aligned word of DRAM keeps its value. -/
theorem memWord_write_other (m : List Host.Cell) {p q : Nat} (w : Word) (hp : p < 2 ^ 38) (hq : q < 2 ^ 38)
    (ap : p % 8 = 0) (aq : q % 8 = 0) (hne : p ≠ q) : memWord (cellsSet m (wordCells p w)) q = memWord m q := by
  have hk : ∀ i, i < 8 → cellGet (cellsSet m (wordCells p w)) (q + i) = cellGet m (q + i) := by
    intro i hi
    apply cellGet_cellsSet_other
    intro e he
    rcases wordCells_key he with h | h
    · omega
    · unfold tagBase at h
      omega
  have ht : cellGet (cellsSet m (wordCells p w)) (tagBase + q / 8) = cellGet m (tagBase + q / 8) := by
    apply cellGet_cellsSet_other
    intro e he
    rcases wordCells_key he with h | h
    · unfold tagBase
      omega
    · omega
  unfold memWord
  have h2 : (List.range 8).map (fun i => cellGet (cellsSet m (wordCells p w)) (q + i)) =
      (List.range 8).map (fun i => cellGet m (q + i)) :=
    List.map_congr_left (fun i hi => hk i (List.mem_range.mp hi))
  rw [ht, h2]

theorem loseResv_latent (c : Chip) (l : Nat) (e : Option Hart) : (c.loseResv l e).latent = c.latent := by
  unfold Chip.loseResv
  exact foldl_keeps Chip.latent _ (fun b (e : Nat × HartSt) => Chip.modHart_latent b (BitVec.ofNat 11 e.1) _) _ _
theorem meetAll_sound {c : Chip} (sel : Place → Bool) (h : c.latent = []) : c.meetAll sel = c := by simp [Chip.meetAll, h]
theorem forgetAll_sound {c : Chip} (sel : Place → Bool) (h : c.latent = []) : c.forgetAll sel = c := by simp [Chip.forgetAll, h]
/-- With no fault waiting to be met, a change of the caches changes them alone, and counts a free choice. -/
theorem setCaches_sound {c : Chip} (y : Caches) (h : c.latent = []) : c.setCaches y = { c.tick with caches := y } := by
  exact (congrArg (fun d : Chip => d.forgetAll (goneOnMove c.caches y))
    (meetAll_sound (c := { c.tick with caches := y }) (meetsOnMove c.caches y) h)).trans (forgetAll_sound _ h)
/-- A fold that has no fault to meet keeps what each of its steps keeps. -/
theorem foldl_sound {α β : Type} (p : Chip → β) (f : Chip → α → Chip)
    (hf : ∀ c a, c.latent = [] → (f c a).latent = [] ∧ p (f c a) = p c) (l : List α) {c : Chip} (h : c.latent = []) :
    (l.foldl f c).latent = [] ∧ p (l.foldl f c) = p c := by
  induction l generalizing c with
  | nil => exact ⟨h, rfl⟩
  | cons a t ih =>
    obtain ⟨h1, h2⟩ := hf c a h
    obtain ⟨h3, h4⟩ := ih h1
    exact ⟨h3, h4.trans h2⟩
/-- What a write by an agent at memory keeps beside the words, where no fault waits to be met (R360). -/
theorem agentWrite_keeps {β : Type} (p : Chip → β) (hc : ∀ (c : Chip) y, p { c.tick with caches := y } = p c)
    (hr : ∀ (c : Chip) k b, p (c.loseResv k b) = p c) {c : Chip} (l : List Host.Cell) (b : Option Hart) (h : c.latent = []) :
    ∃ d : Chip, d.mem = c.mem ∧ p d = p c ∧ (c.agentWrite l b).mem = cellsSet d.mem l ∧
      p (c.agentWrite l b) = p { d with mem := cellsSet d.mem l } := by
  have h1 := foldl_sound (fun c => (c.mem, p c)) (fun (c : Chip) k => (c.invalidate k).loseResv k b) (fun c k hl => by
    unfold Chip.invalidate
    rw [setCaches_sound _ hl, loseResv_latent]
    exact ⟨hl, Prod.ext (loseResv_mem _ _ _) ((hr _ _ _).trans (hc _ _))⟩) (linesOf l) h
  obtain ⟨h2, h3⟩ := h1
  refine ⟨_, congrArg Prod.fst h3, congrArg Prod.snd h3, ?_⟩
  unfold Chip.agentWrite
  generalize (linesOf l).foldl (fun (c : Chip) k => (c.invalidate k).loseResv k b) c = d at h2 ⊢
  have h5 : d.latent.isEmpty = true := by rw [h2]; rfl
  simp only [h5, if_true]
  have h4 := foldl_sound (fun c => (c.mem, p c)) (fun (c : Chip) k => if c.cacheEnv.unif k then c
    else c.setCaches (c.caches.tagLine (k / 8) (Config.freeNat c.fresh) true)) (fun c k hl => by
      split
      · exact ⟨hl, rfl⟩
      · rw [setCaches_sound _ hl]
        exact ⟨hl, Prod.ext rfl (hc _ _)⟩)
    ((linesOf l).filter (fun k => l.any (fun e => decide (tagBase ≤ e.1) && decide (lineOfKey e.1 = k))))
    (c := { d with mem := cellsSet d.mem l }) h2
  exact ⟨congrArg Prod.fst h4.2, congrArg Prod.snd h4.2⟩
/-- It leaves memory with its cells written. -/
theorem agentWrite_mem {c : Chip} (l : List Host.Cell) (b : Option Hart) (h : c.latent = []) :
    (c.agentWrite l b).mem = cellsSet c.mem l := by
  obtain ⟨d, h1, _, h2, _⟩ := agentWrite_keeps (fun _ => ()) (fun _ _ => rfl) (fun _ _ _ => rfl) l b h
  rw [h2, h1]

/-- A unit's write to DRAM: its word reads back. -/
theorem unitWrite_word {c : Chip} {p : Nat} (w : Word) (hp : c.region p = .dram) (h2 : p < 2 ^ 38) (h : c.latent = []) :
    ((c.unitWrite p w).word (p / 8 * 8)).dat = w.dat := by
  unfold Chip.unitWrite Chip.word
  simp only [hp, agentWrite_mem _ _ h]
  rw [memWord_write _ _ (by omega)]
  split <;> rfl

end Sys2Proof.Machine
end

