-- ==== Sys2Proof/Laws/Monad.lean ====
section
/-! SUPPORT. How a computation that may stop runs: sequencing, conditions, state reads and writes, and an instruction from
its start to its end. -/
namespace Sys2Proof.Machine

@[simp] theorem pure_run {α : Type} (a : α) (c : Chip) : (pure a : M α) c = .ok a c := rfl
@[simp] theorem get_run (c : Chip) : (get : M Chip) c = .ok c c := rfl
@[simp] theorem set_run (d c : Chip) : (set d : M PUnit) c = .ok ⟨⟩ d := rfl
@[simp] theorem modify_run (f : Chip → Chip) (c : Chip) : (modify f : M PUnit) c = .ok ⟨⟩ (f c) := rfl
@[simp] theorem modM_run (h : Hart) (f : HartSt → HartSt) (c : Chip) : modM h f c = .ok () (c.modHart h f) := rfl
@[simp] theorem hartM_run (h : Hart) (c : Chip) : hartM h c = .ok (c.hart h) c := rfl
@[simp] theorem raise_run {α : Type} (t : Trap) (c : Chip) : (raise t : M α) c = .error (.trap t) c := rfl

/-- What a sequence comes to, by the outcome of its first part. -/
theorem bind_run {α β : Type} (x : M α) (f : α → M β) (c : Chip) :
    (x >>= f) c = match x c with | .ok a d => f a d | .error e d => .error e d := by
  rw [show (x >>= f) c = EStateM.bind x f c from rfl, EStateM.bind]
  cases x c <;> rfl
theorem bind_ok {α β : Type} {x : M α} {f : α → M β} {c d : Chip} {a : α} (hx : x c = .ok a d) : (x >>= f) c = f a d := by
  rw [bind_run, hx]
theorem bind_error {α β : Type} {x : M α} {f : α → M β} {c d : Chip} {e : Stop} (hx : x c = .error e d) :
    (x >>= f) c = .error e d := by rw [bind_run, hx]

theorem need_true {b : Bool} (t : Trap) (c : Chip) (hb : b = true) : need b t c = .ok () c := by simp [need, hb]
theorem need_false {b : Bool} (t : Trap) (c : Chip) (hb : b = false) : need b t c = .error (.trap t) c := by simp [need, hb]

/-- Specifiers that name registers pass (R86). -/
theorem specsOk_named {l : List (BitVec 6)} (hl : named l) (c : Chip) : specsOk l c = .ok () c :=
  need_true _ _ (by simpa [named] using hl)
/-- A word whose row has PTR = 0 is a raw source (R149). -/
theorem rawSrc_ok {w : Word} {c : Chip} (hw : c.ptr w = false) : rawSrc w c = .ok w.dat c := by
  unfold rawSrc
  rw [bind_ok (get_run c), bind_ok (need_true _ _ (by simp [hw]))]
  rfl
/-- A zero field passes (R140). -/
theorem zeroField_ok {n : Nat} {f : BitVec n} (hf : f = 0) (c : Chip) : zeroField f c = .ok () c :=
  need_true _ _ (by simp [hf])

/-- No fault of the core's logic waits for an instruction of a thread that starts. -/
theorem meetLogic_sound {c : Chip} {h : Hart} (hs : ∀ e ∈ c.latent, e.place ≠ .logic (coreOf h)) : c.meetLogic h = c := by
  unfold Chip.meetLogic
  rw [List.find?_eq_none.2 (by simpa using hs)]
/-- The word at the PC of a thread that starts is the instruction's. -/
theorem atWord_of_fetched {c d : Chip} {h : Hart} {i : Insn} (hf : fetchWord h (c.hart h).pc c = .ok i.code d) :
    c.atWord h i = some i := by
  unfold Chip.atWord
  simp only [hf, if_true]
/-- What an instruction that starts comes to: its completion or its trap, from the module its fetch left. -/
theorem runInsn_of_starts {s : State} {h : Hart} {i : Insn} {c : Chip} (hs : Starts s h i c) : s.chip.runInsn h i =
    (match i.body c with
      | .ok f d => (d.modHart h (fun y => { y with insn := i.code })).retire h f ((s.chip.landed h).hart h).priv
          ((s.chip.landed h).hart h).repa
      | .error e d =>
        let t := (s.chip.landed h).stopped d h e ((s.chip.landed h).hart h).pc (pcForm (((s.chip.landed h).hart h).pc + 4)) i.code
        if e = .wait then t else t.stepEnd h) := by
  obtain ⟨ready, mode, single, noSession, noDebug, sound, fetched⟩ := hs
  have hl : (s.chip.modHart h landDue).meetLogic h = s.chip.landed h := meetLogic_sound sound
  have hk : (s.chip.landed h).coreOk h = true := by
    simp only [Chip.ready, Bool.and_eq_true] at ready
    exact ready.1.1.2
  have hgo : (s.chip.ready h && (i.tram == (s.chip.hart h).tramMode) && ((s.chip.hart h).tramMode || !(s.chip.hart h).repa)) = true := by
    rcases single with e | e <;> simp [ready, mode, e]
  have hd : (((s.chip.landed h).hart h).priv = 0 && (((s.chip.landed h).hart h).stepDue ||
      decide (((s.chip.landed h).hart h).swHits (i.touch (s.chip.landed h)) ≠ 0))) = false := by
    rcases noDebug with e | ⟨e, e'⟩
    · simp [e]
    · simp [e, e']
  have hw : (s.chip.modHart h landDue).atWord h i = some i := atWord_of_fetched fetched
  have hb : (do let _ ← fetchWord h ((s.chip.landed h).hart h).pc; i.body : M Flow) (s.chip.landed h) = i.body c := bind_ok fetched
  simp only [Chip.runInsn, hgo, if_true, hw, Chip.execute, hl, hk, Bool.not_true, noSession, hd, Bool.false_eq_true, if_false, hb] <;> rfl
/-- An instruction that starts and whose effect completes ends in its own next state. -/
theorem runs_of_starts {s : State} {h : Hart} {i : Insn} {c d : Chip} {f : Flow} (hs : Starts s h i c)
    (hb : i.body c = .ok f d) : runs h i s = .next (Ended s h i f d) := by
  rw [runs, runInsn_of_starts hs, hb]
  rfl
/-- An instruction that starts and whose effect stops with a trap takes that trap. -/
theorem runs_of_trap {s : State} {h : Hart} {i : Insn} {c d : Chip} {t : Trap} (hs : Starts s h i c)
    (hb : i.body c = .error (.trap t) d) : runs h i s = .next (Trapped s h i t d) := by
  rw [runs, runInsn_of_starts hs, hb]
  rfl

/-- A raw instruction of two sources completes with its result in rd (R149, R150). -/
theorem raw2_run {h : Hart} {o : AOps} {f : Datum → Datum → M Datum} {a b : Word} {r : Datum} {c c1 c2 c3 : Chip}
    (hn : named [o.rd, o.rs, o.rt]) (ha : src h o.rs c = .ok a c1) (hb : src h o.rt c1 = .ok b c2)
    (pa : c2.ptr a = false) (pb : c2.ptr b = false) (hf : f a.dat b.dat c2 = .ok r c2)
    (hw : writeSpec h o.rd (.raw r) c2 = .ok () c3) : raw2 h o f c = .ok .seq c3 := by
  unfold raw2
  rw [bind_ok (specsOk_named hn c), bind_ok ha, bind_ok hb, bind_ok (rawSrc_ok pa), bind_ok (rawSrc_ok pb), bind_ok hf,
    bind_ok hw]
  rfl
/-- A raw instruction of two sources whose operation traps, traps. -/
theorem raw2_trap {h : Hart} {o : AOps} {f : Datum → Datum → M Datum} {a b : Word} {e : Stop} {c c1 c2 : Chip}
    (hn : named [o.rd, o.rs, o.rt]) (ha : src h o.rs c = .ok a c1) (hb : src h o.rt c1 = .ok b c2)
    (pa : c2.ptr a = false) (pb : c2.ptr b = false) (hf : f a.dat b.dat c2 = .error e c2) :
    raw2 h o f c = .error e c2 := by
  unfold raw2
  rw [bind_ok (specsOk_named hn c), bind_ok ha, bind_ok hb, bind_ok (rawSrc_ok pa), bind_ok (rawSrc_ok pb), bind_error hf]
/-- A raw instruction of one source. -/
theorem raw1_run {h : Hart} {o : AOps} {f : Datum → Datum} {a : Word} {c c1 c2 : Chip} (hz : o.rt = 0)
    (hn : named [o.rd, o.rs]) (ha : src h o.rs c = .ok a c1) (pa : c1.ptr a = false)
    (hw : writeSpec h o.rd (.raw (f a.dat)) c1 = .ok () c2) : raw1 h o f c = .ok .seq c2 := by
  unfold raw1
  rw [bind_ok (zeroField_ok hz c), bind_ok (specsOk_named hn c), bind_ok ha, bind_ok (rawSrc_ok pa), bind_ok hw]
  rfl
/-- A raw instruction with an immediate. -/
theorem rawI_run {h : Hart} {o : IOps} {ok : Bool} {f : Datum → Datum} {a : Word} {c c1 c2 : Chip} (hk : ok = true)
    (hn : named [o.rd, o.rs]) (ha : src h o.rs c = .ok a c1) (pa : c1.ptr a = false)
    (hw : writeSpec h o.rd (.raw (f a.dat)) c1 = .ok () c2) : rawI h o ok f c = .ok .seq c2 := by
  unfold rawI
  rw [bind_ok (need_true _ c hk), bind_ok (specsOk_named hn c), bind_ok ha, bind_ok (rawSrc_ok pa), bind_ok hw]
  rfl

end Sys2Proof.Machine
end

