-- ==== Sys2Proof/Laws/Pages.lean ====
section
/-! SUPPORT. A page write that reaches its register: what it applies, and what recording an error beside it leaves alone. -/
namespace Sys2Proof.Machine

/-- Where an access reaches a register, its page and fields are the table's. -/
theorem reach_ok {c : Chip} {who : Requester} {o : Nat} {wr : Bool} {r : Blk × Nat × List Fld} (h : c.reach who o wr = .ok r) :
    pageAt o = some (r.1, r.2.1) ∧ regFields r.1 r.2.1 (o % 0x1000) = some r.2.2 := by
  obtain ⟨b, i, fs⟩ := r
  unfold Chip.reach at h
  cases hp : pageAt o with
  | none => simp [hp] at h
  | some e =>
    cases hf : regFields e.1 e.2 (o % 0x1000) with
    | none => simp only [hp, hf] at h; grind
    | some gs =>
      have hq : Except.ok (e.1, e.2, gs) = (Except.ok (b, i, fs) : Except Chip _) := by
        simp only [hp, hf] at h
        grind
      cases hq
      exact ⟨rfl, hf⟩

/-- A write that reaches its register applies there. -/
theorem pageWrite_writable {c : Chip} {who : Requester} {o : Nat} {b : Blk} {i : Nat} {fs : List Fld}
    (h : c.writable who o) (hp : pageAt o = some (b, i)) (hf : regFields b i (o % 0x1000) = some fs) (v : Datum) :
    c.pageWrite who o v = c.applyWrite who b i o fs v := by
  obtain ⟨r, hr⟩ := h.2
  obtain ⟨h1, h2⟩ := reach_ok hr
  have e1 : (r.1, r.2.1) = (b, i) := Option.some.inj (h1.symm.trans hp)
  have e2 : r.1 = b := congrArg Prod.fst e1
  have e3 : r.2.1 = i := congrArg Prod.snd e1
  have e4 : r.2.2 = fs := by
    rw [e2, e3] at h2
    exact Option.some.inj (h2.symm.trans hf)
  unfold Chip.pageWrite
  rw [hr]
  obtain ⟨r1, r2, r3⟩ := r
  simp only at e2 e3 e4
  subst e2 e3 e4
  rfl

/-- The write applied: the fields, and then what the write starts. -/
def Chip.written (c : Chip) (who : Requester) (b : Blk) (i o : Nat) (fs : List Fld) (v : Datum) : Chip :=
  (c.setReg o (applyFields (bit (c.reg (o - o % 0x1000 + 0x50)) 0) fs (c.reg o) (c.adjusted b i (o % 0x1000) o v).1)).after who b i
    (o % 0x1000) o (c.reg o) v

/-- What no recorded error changes is, after a write not refused, as the write left it. -/
theorem applyWrite_keeps {β : Type} (p : Chip → β) {c : Chip} {who : Requester} {b : Blk} {i o : Nat} {fs : List Fld} {v : Datum}
    (hp : ∀ d code, p (Chip.err d (o - o % 0x1000) who code (o % 0x1000)) = p d) (hr : c.refuses b i (o % 0x1000) o v = false)
    (hw : o ≠ pwr + 0x100 ∨ c.modeWaits (fld v 63 56) = false) :
    p (c.applyWrite who b i o fs v) = p (c.written who b i o fs v) := by
  unfold Chip.applyWrite
  have h2 : (decide (o = pwr + 0x100) && c.modeWaits (fld v 63 56)) = false := by
    rcases hw with h | h
    · simp [h]
    · simp [h]
  simp only [hr, Bool.false_and, Bool.false_eq_true, if_false, h2]
  unfold Chip.written
  split <;> split <;> split <;> simp only [hp]

end Sys2Proof.Machine
end

