-- ==== Sys2Proof/WellFormed.lean ====
section
/-! DEFINITION. Well-formed commands: each operand is one that its row's rule gives. A command that is not well formed is
nothing the module can receive; its meaning leaves the module as it is, or answers as the rule says (a trap, an error). -/
namespace Sys2Proof

/-- A signed token's length in bytes (R605). -/
def tokenLen : Nat := 289

/-- A frame of a type on its own plane, with records the wire can carry (R526, R527). -/
def frameFits (p : Fin 4) (t : BitVec 4) (f : Frame) : Bool :=
  decide (f.typ = t) && decide (f.plane.toNat = p.val) && Machine.Frame.fits f

/-- The operands of a command are ones its row gives. -/
def WellFormed : Instr → Bool
  | .registerWrite _ o _ => decide (o.toNat % 8 = 0)
  | .irqForce _ o _ => decide (o.toNat % 0x1000 = 0x038)
  | .send _ _ n => decide (n.toNat ≤ 8)
  | .call _ cond _ => decide (cond = 0)
  | .healRequest _ _ a => decide (a.toNat % 8 = 0)
  | .ptpMessage _ m => decide (m.stamp.length = 10)
  | .seqWait u _ => Machine.sequencerOk u
  | .unitWaitExpiry u => Machine.sequencerOk u
  | .dataFrame p f => frameFits p 0 f
  | .ack p f => frameFits p 1 f
  | .syn p f => frameFits p 2 f
  | .synAck p f => frameFits p 3 f
  | .probe p f => frameFits p 4 f
  | .probeAck p f => frameFits p 5 f
  | .portLinkUp _ speed _ => decide (speed = 1) || decide (speed = 2)
  | .railFailed _ why => decide (why = 1) || decide (why = 2)
  | .hostRegisterAccess _ size _ => decide (size = 4) || decide (size = 8)
  | .pciReset kind => decide (kind ≠ 3)
  | .doeRequest _ obj => decide (obj.length ≤ 65536)
  | .challenge _ _ n => decide (n.length = 32)
  | .ideKm _ _ _ key => decide (key.length = 32)
  | .keyUpdate _ op => decide (op = 1) || decide (op = 2)
  | .debugToken _ t | .provisionedToken _ t | .releaseToken _ t | .refurbish _ t | .scrap _ t | .testRun _ t
  | .factoryTestEntry _ t => decide (t.length = tokenLen)
  | .ownerClaim _ t claim => decide (t.length = tokenLen) && decide (claim.length = 240)
  | .rmaToken _ a b => decide (a.length = tokenLen) && decide (b.length = tokenLen)
  | .readLive _ ring _ _ => decide (ring.toNat ≤ 8)
  | .survivalEntry k _ | .thermalTrip k _ | .thermalRezero k _ => decide (k.toNat < 89)
  | .domainTransitionComplete d => decide (d.toNat < 96)
  | .wearLevellingMove b => decide (b.toNat < 1200)
  | .tapPrivate code => decide (0x80 ≤ code.toNat) && decide (code ≠ 0xFF)
  | _ => true

end Sys2Proof
end

