-- ==== Sys2Proof/Tests/Slice0.lean ====
section
/-! SUPPORT. The model's own tests. A `witness_` theorem shows, on a concrete small state, that the hypotheses of the
statement it names can all be met together (clause by clause where it has several); a `test_` theorem checks one result
against the manual's words; a `smoke_` theorem shows a command that `WellFormed` refuses. -/
namespace Sys2Proof.Tests
open Sys2Proof Sys2Proof.Machine
set_option Elab.async false

/-- What a computation gives where it succeeds. -/
def ran {α : Type} (m : M α) (c : Chip) : Option (α × Chip) :=
  match m c with
  | .ok a d => some (a, d)
  | .error _ _ => none

theorem ran_ok {α : Type} {m : M α} {c d : Chip} {a : α} (h : ran m c = some (a, d)) : m c = .ok a d := by
  unfold ran at h; split at h <;> simp_all

/-- The module after the fetch of the instruction at the thread's PC, where the thread can execute it now. -/
def started (s : State) (h : Hart) (i : Insn) : Option Chip :=
  let d := s.chip.landed h
  if s.chip.ready h && (i.tram == (s.chip.hart h).tramMode) && ((s.chip.hart h).tramMode || !(s.chip.hart h).repa)
    && !d.sessionHit h (i.touch d)
    && (decide ((d.hart h).priv ≠ 0) || (!(d.hart h).stepDue && decide ((d.hart h).swHits (i.touch d) = 0)))
    && s.chip.latent.all (fun e => decide (e.place ≠ .logic (coreOf h)))
  then ((ran (fetchWord h (d.hart h).pc) d).filter (fun r => decide (r.1 = i.code))).map (·.2) else none

/-- `started` decides `Starts`: a witness by `started` is one by `Starts`. -/
theorem starts_of {s : State} {h : Hart} {i : Insn} {c : Chip} (hs : started s h i = some c) : Starts s h i c := by
  unfold started at hs
  simp only [Bool.and_eq_true, Bool.or_eq_true, Bool.not_eq_true', decide_eq_true_eq, beq_iff_eq] at hs
  split at hs
  · rename_i hc
    obtain ⟨⟨⟨⟨⟨h1, h2⟩, h3⟩, h4⟩, h5⟩, h6⟩ := hc
    simp only [Option.map_eq_some_iff, Option.filter_eq_some_iff, decide_eq_true_eq] at hs
    obtain ⟨⟨w, d⟩, ⟨hw, rfl⟩, rfl⟩ := hs
    exact ⟨h1, h2, h3, h4, h5, by simpa using h6, ran_ok hw⟩
  · cases hs

/-- Thread 0 running at 0x1000, with the words listed in memory. -/
def demo (x : HartSt) (l : List (Nat × Word) := []) : State :=
  let y : HartSt := { x with run := .run, pc := 0x1000 }
  let m := cellsSet [] (l.flatMap (fun e => wordCells e.1 e.2))
  let c : Chip := { Chip.reset with mode := .run, harts := [(0, y)], mem := m }
  { State.reset with chip := c }

/-- A hart whose globals from G1 on hold the words listed. -/
def globals (l : List Word) : HartSt :=
  { HartSt.reset with regs := (l.mapIdx (fun i w => (385 + i, w))).filter (fun e => decide (e.2 ≠ .raw 0)) }

/-- The state with the instruction's word at 0x1000. -/
def placed (s : State) (i : Insn) : State :=
  { s with chip := { s.chip with mem := cellsSet s.chip.mem (wordCells 0x1000 ⟨0x15, i.code.zeroExtend 64⟩) } }
/-- Thread 0 of a demo executes the instruction placed at its PC, and the module its fetch left is as `k` says. -/
def goes (s : State) (i : Insn) (k : Chip → Bool) : Bool := (started (placed s i) 0 i).any k
/-- A computation succeeds, and what it gives is as `k` says. -/
def gives {α : Type} (m : M α) (c : Chip) (k : α → Chip → Bool) : Bool := (ran m c).any (fun p => k p.1 p.2)

/-- The registers rd = G4, rs = G1, rt = G2. -/
def o412 : AOps := ⟨4, 1, 2⟩
/-- The registers rd = G4, rs = G1, and rt 0. -/
def o410 : AOps := ⟨4, 1, 0⟩
/-- Both sources are read and neither is a pointer. -/
def two (c : Chip) (k : Word → Word → Chip → Bool) : Bool :=
  gives (src 0 1) c (fun a c1 => gives (src 0 2) c1 (fun b c2 => !c2.ptr a && !c2.ptr b && k a b c2))
/-- rd's pending group is loaded. -/
def lazy4 (c : Chip) (k : Chip → Bool) : Bool := gives (lazySpec 0 4) c (fun _ d => k d)
/-- rd is written. -/
def puts (w : Word) (c : Chip) : Bool := gives (writeSpec 0 4 w) c (fun _ _ => true)
/-- A hart with room to allocate: TP at 0x2800 and TAB_END at 0x3000. -/
def roomy (x : HartSt) : HartSt := (x.setPreg 417 (.raw 0x2800)).setSpr 0x003 0x3000
/-- Both sources, and rd as a source, are read. -/
def three (c : Chip) (k : Word → Word → Word → Chip → Bool) : Bool :=
  gives (src 0 1) c (fun a c1 => gives (src 0 2) c1 (fun b c2 => gives (src 0 4) c2 (fun d c3 => k a b d c3)))
/-- A write of the register may be made: `Chip.writable`, decided. -/
def mayWrite (c : Chip) (o : Nat) (who : Requester := .thread 0) : Bool :=
  c.present who && (match c.reach who o true with | .ok _ => true | .error _ => false)
theorem writable_of {c : Chip} {o : Nat} {who : Requester} (h : mayWrite c o who = true) : c.writable who o := by
  unfold mayWrite at h
  rw [Bool.and_eq_true] at h
  refine ⟨h.1, ?_⟩
  cases hr : c.reach who o true with
  | ok r => exact ⟨r, rfl⟩
  | error e => rw [hr] at h; simp at h
/-- The module with registers set. -/
def regs (c : Chip) (l : List (Nat × Datum)) : Chip := l.foldl (fun c e => c.setReg e.1 e.2) c
/-- A module in RUN with thread 0 running at H. -/
def run0 : Chip := (demo HartSt.reset).chip

theorem witness_RawBinaryResults : ([insnAdd, insnSub, insnMul, insnMulh, insnAnd, insnOr, insnXor, insnShl, insnShr,
    insnSar].all (fun i => goes (demo (globals [.raw 6, .raw 64])) (i 0 o412) (fun c => two c (fun _ _ c2 =>
      puts (.raw 1) c2)))) = true := by decide +kernel

theorem witness_FieldInstructionResults : ([insnBfx, insnBfi, insnBperm].all (fun i =>
    goes (demo (globals [.raw 6, .raw 0x3F3F, .raw 0, .raw 9])) (i 0 o412) (fun c => two c (fun _ _ c2 =>
      gives (src 0 4) c2 (fun d c3 => !c3.ptr d && puts (.raw 1) c3))))) = true := by decide +kernel

theorem witness_DivideResults : ([insnDiv, insnRem].all (fun i =>
    goes (demo (globals [.raw 6, .raw 7])) (i 0 o412) (fun c => two c (fun _ b c2 => decide (b.dat ≠ 0) && puts (.raw 1) c2)) &&
    goes (demo (globals [.raw 6])) (i 0 o412) (fun c => two c (fun _ b _ => decide (b.dat = 0))))) = true := by decide +kernel

theorem witness_BitCountResults : ([insnClz, insnCtz, insnPopc].all (fun i => goes (demo (globals [.raw 6])) (i 0 o410)
    (fun c => gives (src 0 1) c (fun a c1 => !c1.ptr a && puts (.raw 61) c1)))) = true := by decide +kernel

theorem witness_RawImmediateResults : ([insnAddi, insnAndi, insnOri, insnXori, insnShli, insnShri, insnSari, insnShori].all
    (fun i => goes (demo (globals [.raw 6])) (i 0 ⟨4, 1, 127⟩) (fun c => gives (src 0 1) c (fun a c1 =>
      !c1.ptr a && puts (.raw 1) c1)))) = true := by decide +kernel

theorem witness_CompareResults :
    goes (demo (globals [.raw 6, .raw 6])) (insnCmp 0 ⟨0, 1, 2⟩) (fun c => two c (fun _ _ c2 =>
      gives (setSprM 0 0x00F 0x11) c2 (fun _ _ => true))) = true ∧
    [insnCmpi 0 ⟨0, 1, 6⟩, insnTagchk 0 ⟨0, 1, 0⟩, insnTagchk 0 ⟨0, 1, 64⟩, insnTagchk 0 ⟨0, 1, 128⟩,
      insnTagchk 0 ⟨0, 1, 192⟩].all (fun i => goes (demo (globals [.raw 6])) i (fun c => gives (src 0 1) c (fun a c1 =>
        !c1.ptr a && gives (setSprM 0 0x00F 0) c1 (fun _ _ => true)))) = true ∧
    goes (demo (globals [.raw 6, .raw 6])) (insnEq 0 o412) (fun c => two c (fun _ _ c2 =>
      lazy4 c2 (fun c3 => gives (setSprM 0 0x00F 0x11) c3 (fun _ c4 => puts ⟨0x05, 1⟩ c4)))) = true := by decide +kernel

theorem witness_FloatResults : ([insnFadd, insnFsub, insnFmul, insnFdiv, insnFma].all (fun i =>
      goes (demo (globals [⟨2, 0x3FF0000000000000⟩, ⟨2, 0x4000000000000000⟩])) (i 0 o412) (fun c => two c (fun _ _ c2 =>
        gives (src 0 4) c2 (fun d c3 => !c3.ptr d && lazy4 c3 (fun c4 => gives (raiseFp 0 1) c4 (fun _ c5 => puts ⟨2, 1⟩ c5)))))) &&
    [insnFcvtIf, insnFcvtFi, insnFcvtFn, insnFcvtBf].all (fun i => goes (demo (globals [.raw 6])) (i 0 o410) (fun c =>
      gives (src 0 1) c (fun a c1 => !c1.ptr a && lazy4 c1 (fun c2 => gives (raiseFp 0 0) c2 (fun _ c3 => puts ⟨2, 1⟩ c3))))) &&
    goes (demo (globals [.raw 6, .raw 7])) (insnFcmp 0 ⟨0, 1, 2⟩) (fun c => two c (fun _ _ c2 => gives (raiseFp 0 16) c2
      (fun _ c3 => gives (setSprM 0 0x00F 6) c3 (fun _ _ => true))))) = true := by decide +kernel

/-- A signalling NaN, a quiet one and a number. -/
theorem witness_FloatNaNResults : isNan 0x7FF0000000000001 = true ∧ isSnan 0x7FF0000000000001 = true ∧
    isNan 0x7FF8000000000000 = true ∧ isSnan 0x7FF8000000000000 = false ∧ isNan 0x3FF0000000000000 = false := by decide +kernel

theorem witness_GenericFixResults : ([insnGadd, insnGsub, insnGmul, insnGash].all (fun i =>
      goes (demo (globals [⟨1, 6⟩, ⟨1, 3⟩])) (i 0 o412) (fun c => two c (fun a b c2 =>
        decide (a.type = 0x01) && decide (b.type = 0x01) && lazy4 c2 (puts ⟨1, 9⟩)))) &&
    goes (demo (globals [⟨1, 6⟩])) (insnGneg 0 o410) (fun c => gives (src 0 1) c (fun a c1 =>
      decide (a.type = 0x01) && decide (a.dat ≠ 0x8000000000000000) && lazy4 c1 (puts ⟨1, 9⟩))) &&
    goes (demo (roomy (globals [⟨1, 6⟩, ⟨1, 3⟩]))) (insnGdiv 0 o412) (fun c => two c (fun _ b c2 =>
      decide (b.dat ≠ 0) && gives (lazySpec 0 4) c2 (fun _ c3 => gives (vendorFetch 0 19) c3 (fun _ c4 =>
        gives (bigResult 0 2 2) c4 (fun w c5 => gives (writeSpec 0 4 w.1) c5 (fun _ c6 =>
          gives (advanceTp 0 (c3.hart 0).tp w.2) c6 (fun _ _ => true))))))) &&
    [insnGlt, insnGle, insnGeq].all (fun i => goes (demo (globals [⟨1, 6⟩, ⟨1, 3⟩])) (i 0 o412) (fun c =>
      two c (fun a b c2 => decide (a.type = 0x01) && decide (b.type = 0x01) && lazy4 c2 (fun c3 =>
        gives (lazyLoad 0 9) c3 (fun _ c4 => gives (setSprM 0 0x00F 0) c4 (fun _ c5 => puts ⟨0x04, 0⟩ c5))))))) = true := by decide +kernel

theorem witness_DispatchEntersBlend : ([insnGadd, insnGsub, insnGmul, insnGdiv, insnGlt, insnGle, insnGeq,
      fun h o => insnBlend h o 0xFF].all (fun i => goes (demo (globals [⟨0x3F, 6⟩, ⟨0x3F, 3⟩])) (i 0 o412) (fun c =>
        gives (src 0 1) c (fun a c1 => gives (src 0 2) c1 (fun b c2 => gives (src 0 4) c2 (fun _ c3 =>
          decide (0x20 ≤ a.type.toNat) && decide (b.type = a.type) && (c3.xfers.lookup 0).isNone && !c3.blendBad.contains (clusterOf 0).toNat &&
          decide (sget c3.blendVmid (clusterOf 0).toNat 0 = (c3.hart 0).vmid))))))) = true := by decide +kernel

/-- A CONS at 0x2000, its pointer in G1, and a vector of one element at 0x2010, its pointer in G5. -/
def cells : State :=
  demo (roomy (globals [⟨0x48, 0x2000⟩, ⟨1, 0⟩, .raw 0, ⟨1, 8⟩, ⟨0x49, 0x2010⟩, ⟨0x4F, 0x2000⟩, .raw 1]))
    [(0x2000, ⟨1, 5⟩), (0x2008, ⟨1, 6⟩), (0x2010, ⟨0x10, 0x10000000000⟩), (0x2018, ⟨1, 7⟩)]

theorem witness_CellResults : ([(insnCar, (0 : Datum)), (insnCdr, 8)].all (fun e =>
      goes cells (e.1 0 o410) (fun c => gives (src 0 1) c (fun a c1 => decide (a.type = 0x08) &&
        gives (loadWord 0 (a.dat + e.2) 2 .other false) c1 (fun v c2 => puts v c2))) &&
      goes (demo (globals [wNil])) (e.1 0 o410) (fun c => gives (src 0 1) c (fun a c1 => decide (a.type = 0x04) && puts wNil c1))) &&
    [(insnRplaca, (0 : Datum)), (insnRplacd, 8)].all (fun e => goes cells (e.1 0 o412) (fun c => three c (fun a b _ c3 =>
      decide (a.type = 0x08) && lazy4 c3 (fun c4 => gives (storeWord 0 (a.dat + e.2) b 3 .other .producible) c4 (fun _ c5 => puts a c5))))) &&
    goes cells (insnCons 0 o412) (fun c => three c (fun a b _ c3 => decide ((c3.hart 0).tp.toNat % 16 = 0) &&
      localForm (c3.hart 0).tp && decide ((c3.hart 0).tp.toNat + 16 ≤ ((c3.hart 0).sprD 0x003).toNat) &&
      lazy4 c3 (fun c4 => gives (storeAll 0 (c4.hart 0).tp [a, b]) c4 (fun _ c5 => puts ⟨0x48, 0x2800⟩ c5))))) = true := by decide +kernel

theorem witness_CellResults_vectors : (goes cells (insnGetv 0 ⟨4, 5, 2⟩) (fun c => gives (src 0 5) c (fun a c1 =>
      gives (src 0 2) c1 (fun b c2 => decide (a.type = 0x09) && decide (b.type = 0x01) &&
        gives (readHeader 0 a.dat) c2 (fun r c3 => decide (b.dat.toInt < r.1) &&
          gives (loadWord 0 r.2.1 2 .other false) c3 (fun v c4 => puts v c4))))) &&
    goes cells (insnSetv 0 ⟨4, 5, 2⟩) (fun c => gives (src 0 5) c (fun a c1 => gives (src 0 2) c1 (fun b c2 =>
      gives (src 0 4) c2 (fun d c3 => decide (b.type = 0x01) && gives (readHeader 0 a.dat) c3 (fun r c4 =>
        decide (b.dat.toInt < r.1) && gives (storeWord 0 r.2.1 d 3 .other .producible) c4 (fun _ _ => true)))))) &&
    goes cells (insnUnbox 0 ⟨4, 6, 0⟩) (fun c => gives (src 0 6) c (fun a c1 => decide (a.type = 0x0F) &&
      gives (loadWord 0 a.dat 2 .other false) c1 (fun v c2 => puts v c2))) &&
    goes cells (insnUnbox 0 ⟨4, 2, 0⟩) (fun c => gives (src 0 2) c (fun a c1 => c1.imm a && puts (.raw a.dat) c1)) &&
    [insnTypeof, insnMkfix].all (fun i => goes cells (i 0 ⟨4, 2, 0⟩) (fun c => gives (src 0 2) c (fun a c1 =>
      decide (a.type = 0x01) && puts ⟨1, 1⟩ c1))) &&
    goes cells (insnTagset 0 ⟨4, 2, 7⟩) (fun c => gives (src 0 2) c (fun a c1 => gives (src 0 7) c1 (fun b c2 =>
      let w : Word := ⟨b.dat.extractLsb' 0 8, a.dat⟩
      c2.producible w && !c2.ptr w && puts w c2))) &&
    goes cells (insnTagset 0 ⟨4, 4, 4⟩) (fun c => gives (src 0 4) c (fun a c1 => gives (src 0 4) c1 (fun b c2 =>
      let w : Word := ⟨b.dat.extractLsb' 0 8, a.dat⟩
      c2.producible w && c2.ptr w && gives (healFor 0 w) c2 (fun v c3 => puts v c3))))) = true := by decide +kernel

/-- RAW words at 0x2000 and 0x2008, and 0x2000 in G1. -/
def plain : State := demo (globals [.raw 0x2000, .raw 5, .raw (2 ^ 50)]) [(0x2000, .raw 0x0102030405060708), (0x2008, .raw 9)]

theorem witness_LoadResults : (goes plain (insnLdw 0 ⟨4, 1, 1⟩) (fun c => gives (src 0 1) c (fun b c1 => decide (b.tag = 0) &&
      lazy4 c1 (fun c2 => gives (loadWord 0 0x2008 2 .word false) c2 (fun w c3 => gives (land 0 4 w) c3 (fun _ _ => true))))) &&
    [(insnLdb, 1), (insnLdh, 2), (insnLdq, 4), (insnLdd, 8)].all (fun e => goes plain (e.1 0 ⟨4, 1, 1⟩) (fun c =>
      gives (src 0 1) c (fun b c1 => let va := b.dat + BitVec.ofNat 64 e.2
        gives (loadRaw 0 (c1.hart 0).regime va e.2) c1 (fun g c2 => match g with
          | .now d => gives (land 0 4 (.raw d)) c2 (fun _ _ => true)
          | .sent _ => false) &&
        gives (translate (walkerOf 0 va 2) (c1.hart 0).regime ⟨2, false, if e.2 = 8 then .raw else .sub⟩) c1 (fun x c2 =>
          decide (c2.region x.pa = .dram) && gives (readAt 0 x) c2 (fun d _ => decide (d.tag = 0)))))) &&
    goes plain (insnLdd 0 ⟨4, 3, 0⟩) (fun c => gives (src 0 3) c (fun b c1 =>
      gives (loadRaw 0 (c1.hart 0).regime b.dat 8) c1 (fun g c2 => match g with
        | .sent _ => gives (lazyPreg 0 388) c2 (fun _ _ => true)
        | .now _ => false))) &&
    goes plain (insnTubld 0 ⟨0, 1, 0⟩) (fun c => gives (src 0 1) c (fun b c1 =>
      gives (translate (walkerOf 0 b.dat 2) (c1.hart 0).regime ⟨2, false, .other⟩) c1 (fun x c2 =>
        gives (allocTub 0 b.dat (some (BitVec.ofNat 52 x.pa)) x.mono x.w) c2 (fun _ _ => true))))) = true := by decide +kernel

/-- SP (specifier 50) and a global have a register, ZR and NL none; a landing with no slots left and one with some. -/
theorem witness_LandingResults : pregOf 0 48 = none ∧ pregOf 0 49 = none ∧ pregOf 0 50 = some 416 ∧ pregOf 0 15 = some 399 ∧
    isPoison (.raw 7) = false ∧ gives (lazyPreg 0 399) plain.chip (fun _ _ => true) = true ∧
    ({ HartSt.reset with landings := [⟨416, .raw 8, 0⟩] } : HartSt).landings.length = 1 := by decide +kernel

theorem witness_StoreResults : (goes plain (insnStw 0 ⟨2, 1, 1⟩) (fun c => gives (src 0 2) c (fun w c1 =>
      gives (src 0 1) c1 (fun b c2 => decide (b.tag = 0) && gives (storeWord 0 (b.dat + 8) w 3 .word .producible) c2 (fun _ _ => true)))) &&
    [(insnStb, 1), (insnSth, 2), (insnStq, 4), (insnStd, 8)].all (fun e => goes plain (e.1 0 ⟨2, 1, 1⟩) (fun c =>
      gives (src 0 2) c (fun w c1 => gives (src 0 1) c1 (fun b c2 => gives (storeRaw 0 (c2.hart 0).regime
        (b.dat + BitVec.ofNat 64 e.2) e.2 w.dat) c2 (fun _ _ => true))))) &&
    goes plain (insnStcode 0 ⟨2, 1, 0⟩) (fun c => gives (src 0 2) c (fun w c1 => gives (src 0 1) c1 (fun b c2 =>
      gives (translate (walkerOf 0 b.dat 3) (c2.hart 0).regime ⟨3, true, .other⟩) c2 (fun x c3 => decide (x.mono = none) &&
        gives (putWord 0 (c2.hart 0).regime x b.dat 3 ⟨0x15, w.dat⟩) c3 (fun _ _ => true)))))) = true := by decide +kernel

/-- The demo with its cluster's core 0 in TAS style (CORE_CFG.ATOMIC_STYLE = 1). -/
def tasDemo : State := { plain with chip := plain.chip.setReg (Blk.clu.base 0 + 0x100) 1 }

theorem witness_AtomicResults : (goes plain (insnLdrsv 0 ⟨4, 1, 0⟩) (fun c => !c.tasStyle 0 && gives (src 0 1) c (fun b c1 =>
      lazy4 c1 (fun c2 => gives (loadWordIn 0 (c2.hart 0).regime b.dat 4 .other false) c2 (fun p c3 => puts p.1
        (c3.modHart 0 (fun y => { y with resv := some (BitVec.ofNat 52 p.2.pa) })))))) &&
    [none, some (0x2000 : PA)].all (fun r => goes { plain with chip := plain.chip.modHart 0 (fun y => { y with resv := r }) }
      (insnStcnd 0 ⟨2, 1, 0⟩) (fun c => gives (src 0 2) c (fun w c1 => gives (src 0 1) c1 (fun b c2 =>
        gives (translate (walkerOf 0 b.dat 4) (c2.hart 0).regime ⟨4, true, .other⟩) c2 (fun x c3 => gives (readAt 0 x) c3 (fun v c4 =>
          !isPoison v && c4.producible w && decide (x.mono = none) && gives (lazyLoad 0 9) c4 (fun _ c5 =>
          decide ((c5.hart 0).resv = r) && gives (putWord 0 (c2.hart 0).regime x b.dat 4 w) c5 (fun _ c6 =>
            gives (setSprM 0 0x00F 0x11) ((c6.drain 0).modHart 0 (fun y => { y with resv := none })) (fun _ _ => true))))))))) &&
    goes tasDemo (insnTas 0 ⟨4, 1, 0⟩) (fun c => c.tasStyle 0 && gives (src 0 1) c (fun b c1 =>
      gives (translate (walkerOf 0 b.dat 4) (c1.hart 0).regime ⟨4, true, .other⟩) c1 (fun x c2 => gives (readAt 0 x) c2 (fun w c3 =>
        !isPoison w && lazy4 c3 (fun c4 => gives (lazyLoad 0 9) c4 (fun _ c5 => gives (deliver 0 x b.dat 4 w) c5 (fun v c6 =>
          gives (putWord 0 (c1.hart 0).regime x b.dat 4 ⟨0x05, 1⟩) c6 (fun _ c7 => gives (writeSpec 0 4 v) (c7.drain 0)
            (fun _ c8 => gives (setSprM 0 0x00F 0) c8 (fun _ _ => true))))))))))) = true := by decide +kernel

theorem witness_OrderingResults : ([insnFenceL, insnFenceS, insnFenceLs, insnFenceG].all (fun i => goes plain (i 0 ⟨0, 0, 0⟩)
      (fun c => c.loadsDone 0 && c.storesDone 0)) &&
    [(insnCleanAddr, 0), (insnInvalAddr, 1), (insnCiAddr, 2)].all (fun e => goes plain (e.1 0 ⟨0, 1, 0⟩) (fun c =>
      gives (src 0 1) c (fun b c1 => gives (translate (walkerOf 0 b.dat (if e.2 = 0 then 2 else 3)) (c1.hart 0).regime
        ⟨if e.2 = 0 then 2 else 3, decide (e.2 ≠ 0), .maint⟩) c1 (fun _ _ => true)))) &&
    [insnCleanSet, insnInvalSet, insnCiSet].all (fun i => goes (demo (globals [.raw 0x20000000])) (i 0 ⟨0, 1, 0⟩) (fun c =>
      gives (src 0 1) c (fun b _ => decide (b.tag = 0) && selectorOk b.dat && decide (fld b.dat 31 28 = 2)))) &&
    [(insnCleanRange, 0x48), (insnInvalRange, 0x49), (insnCiRange, 0x4A)].all (fun e => goes
      (demo (globals [.raw 0x2000, .raw 0x40])) (e.1 0 ⟨0, 1, 2⟩) (fun c => gives (src 0 1) c (fun b c1 => gives (src 0 2) c1
        (fun l c2 => gives (rangeGo 0 e.2 b.dat (b.dat.toNat + l.dat.toNat) (l.dat.toNat / 2 ^ 16 + 2)
          ((c2.hart 0).rangeFrom e.2 b.dat l.dat.toNat)) c2 (fun _ _ => true)))))) = true := by decide +kernel

theorem witness_TubResults :
    goes (demo { HartSt.reset with tub := [⟨0, 0, none, none, true, .word (.raw 5), []⟩] }) (insnTubpop 0 ⟨4, 0, 0⟩) (fun c =>
      (c.hart 0).tub.any (fun (e : TubEntry) => lazy4 c (fun c1 =>
        gives (meetTub 0 e (.raw 5)) (c1.modHart 0 (fun x => { x with tub := [] })) (fun v c2 =>
          !isPoison v && c2.wellFormed v && puts v c2)))) = true ∧
    goes plain (insnTubpop 0 ⟨4, 0, 0⟩) (fun c => decide ((c.hart 0).tub = [])) = true ∧
    goes plain (insnTubcnt 0 ⟨4, 0, 0⟩) (puts (.raw 0)) = true := by decide +kernel

theorem witness_StopeIssue : ([0, 1, 2, 3, 4].all (fun op => goes
      (demo (globals [.raw 0x2000, .raw (if op = 4 then 8 else 5)])) (insnAtomic 0 o412 op false false 0) (fun c =>
        two c (fun b _ c2 => gives (translate (walkerOf 0 b.dat 4) (c2.hart 0).regime ⟨4, true, .other⟩) c2 (fun x c4 =>
          decide (x.mono = none) && gives (setDirtyBits (walkerOf 0 b.dat 4) (c2.hart 0).regime x) c4 (fun _ c5 =>
            gives (destOf 0 4 false false b.dat) c5 (fun d c6 =>
              gives (sendStope 0 op 0 b.dat x (.raw 0) (.raw 5) (.raw 0) d none) c6 (fun _ _ => true))))))) &&
    goes (demo (globals [⟨0x48, 0x2000⟩, ⟨1, 2⟩])) (insnAwalk 0 o412 false false 2) (fun c => gives (src 0 1) c (fun b c1 =>
      gives (src 0 2) c1 (fun w c2 => decide (b.type = 0x08) && decide (w.type = 0x01) &&
        gives (translate (walkerOf 0 b.dat 2) (c2.hart 0).regime ⟨2, false, .other⟩) c2 (fun x c3 =>
          gives (destOf 0 4 false false b.dat) c3 (fun d c4 =>
            gives (sendStope 0 5 2 b.dat x (.raw 0) w b d (headResult 2 b w x)) c4 (fun _ _ => true))))))) = true := by
  decide +kernel

/-- A GPTR in G1 and a RAW SEND address in G2. -/
def remote : State := demo (globals [⟨0x51, 0x2000⟩, .raw 0])

theorem witness_RemoteIssue : (goes remote (insnGld 0 ⟨4, 1, 0⟩) (fun c => gives (src 0 1) c (fun g c1 => c1.glob g &&
      gives (destOf 0 4 false false g.dat) c1 (fun d c2 => gives (issue 0 1 g.dat g.dat [] d 0) c2 (fun _ _ => true)))) &&
    goes remote (insnGst 0 ⟨2, 1, 0⟩) (fun c => gives (src 0 2) c (fun w c1 => gives (src 0 1) c1 (fun g c2 =>
      c2.glob g && c2.producible w && gives (issue 0 2 g.dat g.dat [w] .none 0) c2 (fun _ _ => true)))) &&
    [0, 1, 2, 3].all (fun op => goes remote (insnGamo 0 o412 op true) (fun c => gives (src 0 1) c (fun g c1 =>
      gives (src 0 2) c1 (fun w c2 => c2.glob g && c2.producible w && gives (destOf 0 4 true false g.dat) c2 (fun d c4 =>
        gives (issue 0 (3 + op) g.dat g.dat [w] d 0) c4 (fun _ _ => true)))))) &&
    goes remote (insnSend 0 ⟨0, 2, 0⟩ 8) (fun c => gives (src 0 2) c (fun g c1 => decide (g.tag = 0) &&
      gives ((List.range 8).mapM (fun i => src 0 (BitVec.ofNat 6 (16 + i)))) c1 (fun ws c2 =>
        gives (issue 0 7 g.dat g.dat ws .none 0) c2 (fun _ _ => true))))) = true := by decide +kernel

/-- CODE of 0x2000 in G1 and in the RLINK of the current window, two windows resident. -/
def linked : State := demo (((globals [⟨0x12, 0x2000⟩]).setPreg 401 ⟨0x12, 0x2000⟩).setSpr 0x04E 0x201)

theorem witness_TransferResults : (goes plain (insnBr 0 1 4) (fun c => gives (lazyLoad 0 9) c (fun _ _ => true)) &&
    goes plain (insnCall 0 0 4) (fun c => decide ((c.hart 0).resident ≠ 15) && gives (lazyWindow 0) c (fun _ c1 =>
      gives (shadowPush 0 ⟨0x12, 0x1004⟩) c1 (fun _ _ => true))) &&
    goes linked (insnCallReg 0 ⟨0, 1, 0⟩) (fun c => gives (src 0 1) c (fun w c1 => decide (w.type = 0x12) &&
      gives (lazyWindow 0) c1 (fun _ c2 => gives (shadowPush 0 ⟨0x12, 0x1004⟩) c2 (fun _ _ => true)))) &&
    goes linked (insnRet 0 ⟨0, 0, 0⟩) (fun c => decide ((c.hart 0).resident ≠ 1) && gives (lazyWindow 0) c (fun _ c1 =>
      gives (readPreg 0 (400 + (c1.hart 0).cwp)) c1 (fun w c2 => decide (w.type = 0x12) &&
        gives (shadowCompare 0 w) c2 (fun _ _ => true)))) &&
    goes linked (insnJmpl 0 ⟨4, 1, 1⟩) (fun c => gives (src 0 1) c (fun w c1 => decide (w.type = 0x12) &&
      puts ⟨0x12, 0x1004⟩ c1))) = true := by decide +kernel

/-- A thread at a privilege. -/
def atPriv (x : HartSt) (p : Datum) (l : List (Nat × Word) := []) : State := demo (x.setSpr 0x000 p) l

theorem witness_SystemCallResults : (goes (atPriv (globals []) 0) (insnSyscall 0 ⟨0, 0, 0⟩) (fun c =>
      decide ((c.hart 0).priv = 0) && gives (serialise 0) c (fun _ c1 => decide ((c1.hart 0).resident ≠ 15) &&
        gives (lazyWindow 0) c1 (fun _ c2 => gives (lazyLoad 0 9) c2 (fun _ _ => true)))) &&
    goes (atPriv (((globals []).setSprW 0x00B ⟨0x12, 0x2000⟩).setSpr 0x04E 0x201) 1) (insnSysret 0 ⟨0, 0, 0⟩) (fun c =>
      gives (serialise 0) c (fun _ c1 => gives (lazyLoad 0 9) c1 (fun _ c2 => (c2.hart 0).sysretOk &&
        decide (((c2.hart 0).sprW 0x00B).type = 0x12) && decide ((c2.hart 0).resident ≠ 1) &&
        gives (lazyWindow 0) c2 (fun _ _ => true))))) = true := by decide +kernel

theorem witness_EretRestores : goes (atPriv ((globals []).setPreg 416 (.raw 0x2000)) 1
      [(0x2000, ⟨0x52, 0x3000⟩), (0x2008, .raw 1), (0x2030, .raw 0x100)]) (insnEret 0 ⟨0, 0, 0⟩) (fun c =>
    decide (1 ≤ (c.hart 0).priv) && gives (serialise 0) c (fun _ c1 => decide ((c1.hart 0).active = 0) &&
      gives (eretBody 0) c1 (fun pc _ => decide (pc = 0x3000)) &&
      gives ((List.range 16).mapM (fun i => loadWord 0 ((c1.hart 0).sp + BitVec.ofNat 64 (8 * i)) 7)) c1
        (fun ws _ => decide (ws.length = 16)))) = true := by decide +kernel

theorem witness_SoftwareTrap : goes plain (insnTrap ⟨0, 0, 5⟩) (fun _ => true) = true := by decide +kernel

theorem witness_WaitResults : ([.raw 0, .raw 1].all (fun t => goes (demo (globals [t])) (insnWaitt 0 ⟨0, 1, 0⟩) (fun c =>
      gives (src 0 1) c (fun w c1 => decide (w.tag = 0) && gives (serialise 0) c1 (fun _ c2 =>
        (reached (c2.time.counter.extractLsb' 16 64) w.dat == decide (t = .raw 0)) &&
        gives (setSprM 0 0x00F 0x11) c2 (fun _ _ => true))))) &&
    goes plain (insnWfi 0 ⟨0, 0, 0⟩) (fun c => decide (1 ≤ (c.hart 0).priv) && gives (serialise 0) c (fun _ _ => true)) &&
    (let c := plain.chip.modHart 0 (fun x => { x with run := .waitt 0 })
     decide (c.hartDom 0 = .on) && c.coreOk 0 && decide (c.acceptable 0 = none) && !c.haltDue 0 && !(c.hart 0).pending 9)) = true := by
  decide +kernel

theorem witness_LoopResults : ([.raw 3, .raw 0].all (fun n => goes (demo (globals [n])) (insnLsetup 0 ⟨0, 1, 2⟩) (fun c =>
      gives (src 0 1) c (fun w c1 => decide (w.tag = 0) && decide ((c1.hart 0).ldepth < 4))) &&
    [(48, 3), (1, 0)].all (fun (e : BitVec 6 × BitVec 14) => goes (demo (globals [n])) (insnRep 0 ⟨0, e.1, e.2⟩) (fun c =>
      gives (nextWord 0) c (fun w c1 => !(c1.hart 0).atLoopEnd && !w.any repForbids && decide ((c1.hart 0).ldepth = 0) &&
        gives (src 0 e.1) c1 (fun _ _ => true))))) &&
    (let c := (atPriv (globals []) 0x83).chip
     c.ready 0 && (c.hart 0).repa && !(c.hart 0).tramMode)) = true := by decide +kernel

/-- A thread with its save area at 0x2000. -/
def saved : State := demo ((globals [.raw 0x3000]).setSpr 0x080 0x2000)

theorem witness_ContextResults : ([(insnSaveu, saveUpper, false), (insnSavel, saveLower, false), (insnRstru, restoreUpper, false),
      (insnRstrl, restoreLower, true)].all (fun (e : (Hart → AOps → Insn) × (Hart → Datum → M Unit) × Bool) =>
      goes saved (e.1 0 ⟨0, 0, 0⟩) (fun c => decide ((c.hart 0).tub = []) && gives (if e.2.2 then serialise 0 else pure ()) c
        (fun _ c1 => gives (e.2.1 0 0x2000) c1 (fun _ _ => true)))) &&
    goes saved (insnCtxsw 0 ⟨0, 1, 0⟩) (fun c => gives (src 0 1) c (fun w c1 => decide (w.tag = 0) &&
      gives (serialise 0) c1 (fun _ c2 => gives (saveUpper 0 0x2000) c2 (fun _ c3 => gives (saveLower 0 0x2000) c3 (fun _ c4 =>
        gives (restoreLower 0 w.dat) (c4.modHart 0 (fun x => x.setSpr 0x080 w.dat)) (fun _ c6 =>
          gives (restoreUpper 0 w.dat) c6 (fun _ _ => true)))))))) = true := by decide +kernel

theorem witness_SpecialRegisterResults : (goes plain (insnRdspr 0 ⟨4, 0, 0x003⟩) (fun c => (sprPriv 0x003).isSome &&
      gives (sprValue 0 0x003) c (fun w c1 => puts w c1)) &&
    goes plain (insnRdspr 0 ⟨4, 0, 0xFFF⟩) (fun _ => (sprPriv 0xFFF).isNone) &&
    goes (atPriv (globals []) 0) (insnRdspr 0 ⟨4, 0, 0x007⟩) (fun c => decide ((c.hart 0).priv = 0) && (sprPriv 0x007).isSome) &&
    goes plain (insnWrspr 0 ⟨0, 1, 0x003⟩) (fun c => gives (src 0 1) c (fun w c1 => gives (setSprM 0 0x003 w.dat) c1
      (fun _ _ => true))) &&
    goes plain (insnWrspr 0 ⟨0, 1, 0x085⟩) (fun c => decide (((sprPriv 0x085).bind (·.2)) = none) &&
      gives (src 0 1) c (fun _ _ => true)) &&
    [0x134, 0x133, 0x104].all (fun n => goes (demo (globals [.raw 7])) (insnWrspr 0 ⟨0, 1, n⟩) (fun c =>
      gives (src 0 1) c (fun w _ => decide (w.dat.toNat < 2048) && bit w.dat 0))) &&
    goes saved (insnWrspr 0 ⟨0, 1, 0x080⟩) (fun c => gives (src 0 1) c (fun _ c1 => gives (serialise 0) c1 (fun _ c2 =>
      gives (lazyAll 0) c2 (fun _ _ => true))))) = true := by decide +kernel

theorem witness_TlbiResults : ([0, 1, 2, 3, 4, 5, 6, 7, 8].all (fun k =>
    goes (demo (globals [.raw (BitVec.ofNat 64 (k * 2 ^ 44))])) (insnWrspr 0 ⟨0, 1, 0x114⟩) (fun c => gives (src 0 1) c (fun w c1 =>
      decide (fld w.dat 47 44 = k) && gives (serialise 0) c1 (fun _ c2 => decide ((c2.hart 0).priv = 3) &&
        decide (fld w.dat 42 39 = 0) && decide (fld w.dat 38 36 = 0) && !c2.tlbiBusy 0 w.dat))))) = true := by decide +kernel

/-- Thread 0 a member of the enabled group 0 of partition 0, its bucket as given. -/
def caged (l : List Word) (missing : Nat) : State :=
  let c := ((demo (globals l)).chip.setReg (grpAt 0) (BitVec.ofNat 64 (2 ^ 63))).setReg (Blk.cge.base 0 + 0x100) 1
  { demo (globals l) with chip := { c with tokens := if missing = 0 then [] else [(0, missing)] } }

theorem witness_CageInjection : ([(0 : Datum), 0x10].all (fun v => [0, 2].all (fun m => goes (caged [.raw v] m)
    (insnWrspr 0 ⟨0, 1, 0x121⟩) (fun c => gives (src 0 1) c (fun w c1 => decide (fld w.dat 63 6 = 0) &&
      bit (c1.reg (grpAt 0)) 63 && decide (c1.rf (grpAt 0) 27 16 = 0) && c1.member 0 0 && !bit ((c1.hart 0).sprD 0x123) 0 &&
      (c1.hasToken 0 == decide (m = 0))))))) = true := by decide +kernel

/-- A flit below the root, at it, and in the CTRL class, with no fault and with an uncorrectable one; a full ANY round of
thread 0; an alert of a thread that is on and of one that is off; an empty slot with nothing, a message and an announcement
held; both rails good. -/
theorem witness_CageResults :
    ([(some true, CageNode.cluster 0), (some true, .tile 0), (none, .cluster 0)].all (fun (e : Option Bool × CageNode) =>
      let f : Flit := ⟨e.1, e.2, 0, 0, [(0, 0, 5)]⟩
      let c : Chip := { run0 with cageMsgs := [f] }
      decide (c.cageMsgs[0]? = some f) && decide (c.flitFault true = 0) &&
        (decide (e.1 = none) || (decide (f.node.up = .root) == decide (e.2 = .tile 0)))) = true) ∧
    (let c : Chip := { run0 with latent := [⟨.flit true, 2⟩], cageMsgs := [⟨some true, .cluster 0, 0, 0, [(0, 0, 5)]⟩] }
     2 ≤ c.flitFault true ∧ c.railState true = 1) ∧
    (let c := (caged [] 0).chip.setReg (grpAt 0) (BitVec.ofNat 64 (2 ^ 63 + 8 + 4))
     let d : Chip := { c with rounds := [(0, ⟨[(0, 7)]⟩)] }
     d.rf (grpAt 0) 3 3 = 1 ∧ d.roundFull 0 = true ∧ d.hartOff 0 = false ∧ d.rf (grpAt 0) 2 0 = 4) ∧
    run0.hartOff 0 = false ∧ (run0.setDom 0 .off).hartOff 1 = true ∧
    ([(0, 0, 1)] : List (BitVec 4 × Hart × BitVec 32)).filter (fun a => decide (a.1 = 0) && decide (a.2.1 = 0)) ≠ [] ∧
    ([[], [(0, HeldMsg.thread ⟨0, 0, 0, 5⟩)], [(2056, HeldMsg.announce 0)]].all (fun (l : List (Nat × HeldMsg)) =>
      let c : Chip := { run0 with tokens := [(0, 1), (2056, 1)], held := l }
      decide (sget c.tokens 0 0 ≠ 0) && decide (sget c.tokens 2056 0 ≠ 0) && !(c.hart 0).dbgStep &&
        decide (c.held.find? (fun e => decide (e.1 = 0) || decide (e.1 = 2056)) = l.head?)) = true) ∧
    run0.railState true = 1 ∧ run0.railState false = 1 ∧ run0.hdf.resetHeld = false := by decide +kernel

theorem witness_PageWriteResults :
    (mayWrite run0 (pwr + 0x30) = true ∧ mayWrite run0 (pwr + 0x18) = true ∧ mayWrite run0 (pwr + 0x38) = true ∧
     (pageAt (pwr + 0x30)).isSome = true ∧ mayWrite run0 (Blk.clu.base 63 + 0x148) = true ∧
     (let c := (atPriv HartSt.reset 0).chip
      (c.hart 0).priv < (Blk.pwr.privs).2.toNat ∧ c.present (.thread 0) = true)) := by decide +kernel

/-- Context 0: a heap of one region at 2^21 with its planes below 2^21, partition 0. -/
def heap (st cfg : Nat) : Chip :=
  regs run0 [(ctxReg 0 0, BitVec.ofNat 64 cfg), (ctxReg 0 0x08, BitVec.ofNat 64 (2 ^ 47)),
    (ctxReg 0 0x10, 0x10000), (ctxReg 0 0x18, 0x20000), (ctxReg 0 0x38, BitVec.ofNat 64 st), (sluBase + 0x900, 0x100000)]
/-- Fields of STATUS: PHASE, FLIP, ARMED, CLEARED. -/
def stWord (phase flip armed clear : Nat) : Nat := 2 ^ 46 + phase * 2 ^ 43 + flip * 2 ^ 42 + armed * 2 ^ 41 + clear * 2 ^ 40

theorem witness_SluiceRegisterResults :
    (let c := heap (stWord 0 0 0 1) 0
     mayWrite c (ctxReg 0 0) = true ∧ c.ctxEn 0 = false ∧ c.enRefused 0 0 = false) ∧
    (let c := heap (stWord 0 0 0 0) (2 ^ 63)
     c.memUp = true ∧ c.ctxEn 0 = true ∧ c.ctxPhase 0 = 0 ∧ c.rf (stAt 0) 40 40 = 0) ∧
    (let c := heap (stWord 0 0 0 1) (2 ^ 63)
     mayWrite c (ctxReg 0 0x30) = true ∧ c.rf (stAt 0) 42 41 = 0 ∧ c.ctxEn 0 = true ∧ c.ctxPhase 0 = 0 ∧
     reached c.now (c.reg (ctxReg 0 0x28)) = true ∧ reached c.now 1 = false) ∧
    (let c := heap (stWord 2 0 0 1) (2 ^ 63 + 2 ^ 62)
     c.ctxPhase 0 = 2 ∧ c.rf (ctxReg 0 0) 62 62 = 1) ∧
    (heap (stWord 0 0 1 1) (2 ^ 63)).rf (stAt 0) 41 41 = 1 ∧
    (let c := heap (stWord 0 0 0 1) (2 ^ 63)
     mayWrite c (ctxReg 0 0x48) = true ∧ (c.slc 0).writing = false ∧ 0 < c.heapCount 0 ∧ rgnState (c.rgn (c.pfirst 0)) = 0 ∧
     c.region (c.regionAt (c.pfirst 0)) = .dram ∧ c.regionAt (c.pfirst 0) ≥ c.cardBase 0 + c.heapCount 0 * 4096 ∧
     ∀ st ∈ [1, 2, 4, 5], let d := c.setRgn (c.pfirst 0) (BitVec.ofNat 64 (st * 2 ^ 60))
       rgnState (d.rgn (c.pfirst 0)) = st) := by decide +kernel

theorem witness_SluiceEngineResults :
    (let c := (heap (stWord 1 1 0 1) (2 ^ 63)).setSlc 0 { SluCtx.reset with announce := 1 }
     c.flipDone 0 = false ∧ c.holds (.announce 0) = false ∧ (c.slc 0).announce.getLsbD 0 = true ∧ clusterOf 0 = 0 ∧ (c.hart 0).run ≠ .off ∧
     (c.hart 0).vmid.toNat = c.rf (ctxReg 0 0) 11 0) ∧
    (let c := (heap (stWord 1 1 0 1) (2 ^ 63)).modHart 0 (fun x => { x with sweep := true })
     (c.hart 0).sweep = true ∧ (c.hart 0).micro = none ∧ c.quietHart 0 = true ∧ c.ctxOf (c.hart 0).vmid = some 0 ∧
     (c.drain 0).ctxPhase 0 = 1 ∧ gives (sweepRegs 0 0) (c.drain 0) (fun _ _ => true) = true) ∧
    (let c := heap (stWord 1 1 0 1) (2 ^ 63)
     c.flipDone 0 = false ∧ c.holds (.announce 0) = false ∧ (c.slc 0).announce.getLsbD 5 = false ∧
     (c.slc 0).ack.getLsbD 5 = false ∧ (c.hart 0).sweep = false ∧ c.home = [] ∧ c.jobEn 0 = false) ∧
    (let c := { heap (stWord 0 0 0 1) (2 ^ 63) with mem := cellsSet [] (wordCells 0x3000 ⟨0x88, 0x7000000⟩) }
     c.ctxEn 0 = true ∧ c.region 0x3000 = .dram ∧ c.latent = [] ∧ c.wellFormed (c.word 0x3000) = true ∧ c.ptr (c.word 0x3000) = true ∧
     (c.word 0x3000).colour ≠ c.ctxGood 0 ∧ c.heapPtr 0 (c.word 0x3000) = none) ∧
    (let c := (heap (stWord 3 0 0 1) (2 ^ 63)).setSlc 0 { SluCtx.reset with
       evac := [1], objs := [(0x200000, 0x08)], targets := [⟨0, 0, 16⟩] }
     c.ctxPhase 0 = 3 ∧ c.flipDone 0 = true ∧ c.moved 0x200000 = false ∧
     (c.copyObject 0 ⟨0x08, 0⟩ 0x200000).2 = some 0x200080) ∧
    (let c := (heap (stWord 4 0 0 1) (2 ^ 63)).setSlc 0 { SluCtx.reset with ranges := [(0x3000, 64)] }
     c.ctxPhase 0 = 4 ∧ c.flipDone 0 = true ∧ (c.slc 0).queue = [] ∧ c.dom 19 = .on ∧ c.memUp = true ∧ c.latent = [] ∧
     c.holds (.round 0) = false ∧ ((List.range 8).all (fun i => c.unitMay (engineSrc i))) = true ∧ c.region 0x3000 = .dram ∧
     c.wellFormed (c.word 0x3000) = true ∧ c.ptr (c.word 0x3000) = false) := by decide +kernel

theorem witness_FastClearAndScrub :
    mayWrite run0 (fcCtlAt 8) = true ∧ run0.rf (fcCtlAt 8) 0 0 = 0 ∧ run0.badRetag 0x48 = false ∧
    (run0.setReg (memPage 8 + 0x108) 64).rf (memPage 8 + 0x108) 38 6 * 64 = 64 ∧
    (⟨true, 0x48, 0x3000, 64⟩ : FcOp).holds (ctlOf 0x3000) (0x3000 / 64) = true ∧
    (⟨true, 0x48, 0x3000, 64⟩ : FcOp).holds (ctlOf 0x3000) (0x3040 / 64) = false ∧
    run0.ctlFailed.getLsbD 0 = false ∧ run0.dom 80 = .on ∧ run0.rf (memPage 0 + 0x118) 16 16 = 1 ∧
    run0.rf (memPage 0 + 0x120) 31 0 < run0.slots ∧
    run0.slots ≤ (run0.setReg (memPage 0 + 0x120) 59652323).rf (memPage 0 + 0x120) 31 0 := by decide +kernel

/-- Drift enabled as node 1, port 0 up in RUN, and node 2 enabled with a session. -/
def drift (l : List (Nat × Datum) := []) : Chip :=
  let c := regs run0 ([(dft4 + 0x100, BitVec.ofNat 64 (2 ^ 63 + 2 ^ 44)), (dft4 + 0x108, 1),
    (Blk.dft.base 0 + 0x100, 0x10100)] ++ l)
  { c with peers := [(2, { Peer.reset with enabled := true, planes := 1, session := 7, theirs := some 9, up := true,
                                           gen := { Peer.reset.gen with synced := true } })] }
/-- A frame from node 2 to node 1. -/
def frame (t : BitVec 4) : Frame := ⟨0, 0, false, 0, 1, t, 1, 0, 9, 2, 1, 0, 0, 0, []⟩

theorem witness_DriftFrameResults :
    (∀ t : Fin 6, (drift).frameOk 0 (frame (BitVec.ofNat 4 t.val)) t.val = true ∧ Frame.fits (frame (BitVec.ofNat 4 t.val)) = true) ∧
    drift.sessionOk (frame 0) = true ∧ ((drift.peer 2).stream false).synced = true ∧ (drift.peer 2).waiting = [] ∧
    (frame 0).seq = ((drift.peer 2).stream false).expect ∧ (drift.peer 2).enabled = true ∧ (drift.peer 2).session ≠ 0 ∧
    (drift.peer 2).theirs = some 9 ∧ Peer.reset.theirs = none ∧ drift.portUp 0 = true ∧ (2 : BitVec 18) ≠ drift.ownNode ∧
    (drift.peer 2).planes.getLsbD 0 = true ∧ drift.dom 89 = .on ∧ 64 < ((0 : BitVec 32) - 1).toNat := by decide +kernel

theorem witness_DriftControlResults :
    run0.dom 89 = .on ∧ run0.portFailed.getLsbD 0 = false ∧ run0.rf (portAt 0) 16 16 = 0 ∧ drift.rf (portAt 0) 16 16 = 1 ∧
    run0.portFailed = 0 ∧ run0.mode ≠ .degraded ∧ mayWrite drift (dft4 + 0x110) = true ∧ drift.driftEn = true ∧
    drift.reg (dft4 + 0x108) ≠ 0 ∧ (2 : BitVec 18) ≠ drift.ownNode ∧ mayWrite drift (dft4 + 0x100) = true ∧ drift.home = [] ∧
    mayWrite run0 (qRingAt 47) = true ∧ run0.present (.thread 0) = true ∧ (run0.hart 0).priv = 3 ∧
    (let c := regs run0 [(qPtrAt 0, BitVec.ofNat 64 (2 ^ 32))]
     let v : Datum := BitVec.ofNat 64 (2 ^ 48 + 2 ^ 44 + 3)
     ringClosed v = false ∧ ringHeld (c.reg (qPtrAt 0)) = 1 ∧ c.region (ringBase v) = .dram ∧
     fld v 63 48 ≠ c.rf (qRingAt 0) 63 48) := by decide +kernel

/-- Window 0 open on the demo, and a record of an operation from the module's own node at the head of the list. -/
def homed (op : Byte) (err : BitVec 16) (addr : Datum) (open_ : Bool) : Chip :=
  let c := drift ((qRingAt 0, BitVec.ofNat 64 (2 ^ 44 + 3)) :: (if open_ then [(gwinCtlAt 0, BitVec.ofNat 64 (2 ^ 63))] else []))
  { c with home := [⟨1, false, ⟨op, 0, 3, err, 0, addr, []⟩, false, none⟩] }

theorem witness_HomeRecordResults :
    (∀ op ∈ ([1, 2, 3, 6] : List Byte), ((homed op 0 0 false).homeAt 0).isSome = true ∧ (homed op 0 0 false).winOpen 0 = false ∧
      (homed op 0 0 false).ownNode = 1) ∧
    (∃ l, ((homed 1 0 0x2000 true).homeDo ⟨1, false, ⟨1, 0, 3, 0, 0, 0x2000, []⟩, false, none⟩).2 = .reply 0 l) ∧
    (let c := homed 7 0 (BitVec.ofNat 64 (2 ^ 45)) true
     c.winOpen 0 = true ∧ ringClosed (c.reg (qRingAt 0)) = false ∧ fld (c.reg (qRingAt 0)) 43 40 = 0 ∧
     fld (c.reg (qRingAt 0)) 63 48 = 0 ∧ ringHeld (c.reg (qPtrAt 0)) < ringSlots (c.reg (qRingAt 0)) ∧
     c.region (ringBase (c.reg (qRingAt 0))) = .dram ∧
     ringHeld ((c.setReg (qPtrAt 0) (BitVec.ofNat 64 (32 * 2 ^ 32))).reg (qPtrAt 0)) = ringSlots (c.reg (qRingAt 0))) ∧
    (let c := regs (homed 9 1 0 true) [(ctxReg 0 0, BitVec.ofNat 64 (2 ^ 63)),
       (ctxReg 0 0x38, BitVec.ofNat 64 (2 ^ 48 + stWord 1 0 0 1)), (ctxReg 0 0x40, BitVec.ofNat 64 (2 ^ 63 + 2 ^ 62))]
     c.mode ≠ .quiesced ∧ c.unitMay flipSrc = true ∧ c.ctxOf (c.winVmid 0) = some 0 ∧ c.jobCtx ⟨1, false, ⟨9, 0, 3, 1, 0, 0, []⟩, false, none⟩ = some 0 ∧
     c.rf (ctxReg 0 0x40) 62 62 = 1 ∧ c.ctxEpoch 0 = 1 ∧ c.rf (stAt 0) 38 38 = 0 ∧ (c.slc 0).quiet < 2 ∧ c.ctxPhase 0 = 1 ∧
     c.marksOut 0 = false ∧ epochPast 2 (c.ctxEpoch 0) = true ∧ epochPast 0 (c.ctxEpoch 0) = false) := by
  refine ⟨by decide +kernel, ⟨[.raw 0], by decide +kernel⟩, by decide +kernel, by decide +kernel⟩

/-- A Stope request of AFADD at 0x2000 for G4 of thread 0. -/
def stopeReq (op : BitVec 3) (r : Option OpResult) (f : Option Nat) : StopeReq :=
  ⟨0, 0, op, 0, 2, 0x2000, { pa := 0x2000 }, .raw 0, .raw 5, .reg 388, ⟨3, 0, 0, 0, 0⟩, 0, 1, wNil, 0, true, [], f, r⟩

theorem witness_DeliveryResults :
    (let c := plain.chip.modHart 0 (fun x => { x with tub := [⟨0, 0x2000, some 0x2000, none, true, .waiting, []⟩] })
     (c.hart 0).tub.length = 1 ∧ c.memUp = true ∧ gives (readAt 0 { pa := 0x2000 }) c (fun w d => !isPoison w &&
       gives (deliver 0 { pa := 0x2000 } 0x2000 2 w) d (fun _ _ => true)) = true) ∧
    (let q := stopeReq 0 none none
     let c : Chip := { plain.chip with stope := [q] }
     c.stopeBefore q q.words = false ∧ c.ctlFailed.getLsbD q.ctl = false ∧
     ({ c with ctlFailed := 4 } : Chip).ctlFailed.getLsbD q.ctl = true ∧ q.xl.mono = none ∧ q.xl.leaf1 = none ∧ q.xl.leaf2 = none ∧
     c.region q.xl.pa = .dram ∧ c.latent = [] ∧ (c.word q.xl.pa).type = 0 ∧ isPoison (c.word q.xl.pa) = false ∧
     c.ptr (c.word q.xl.pa) = false ∧ (let w := c.word q.xl.pa; c.producible { w with dat := w.dat + q.arg.dat }) = true ∧
     (stopeReq 5 none none).cell.type = 0x04 ∧ (stopeReq 5 none (some 3)).forward = some 3 ∧ c.stopeBusy 3 < 128 ∧
     (c.atomic 0 q.view q.walker q.regime q.xl q.va q.expect q.arg).2.isSome = true) ∧
    (let c := plain.chip.modHart 0 (fun x => { x with wait := some .stope })
     (c.hart 0).wait = some .stope ∧ (c.hart 0).dbgStep = false ∧ c.wellFormed (.raw 7) = true ∧ (c.hart 0).dse = none ∧
     (c.hart 0).run ≠ .off) ∧
    (let o : RemoteOp := ⟨3, 2, 0, 0x01, 0, 0x2000, [], .reg 388, 3, 0⟩
     let r : HomeRec := ⟨2, false, ⟨0x81, 0, 3, 0, 0, 0, [.raw 7]⟩, false, none⟩
     let c : Chip := { plain.chip with home := [r], remote := [o] }
     c.homeAt 0 = some r ∧ 0x80 ≤ r.rcd.op.toNat ∧
     c.remote.find? (fun p => decide (p.node = r.src) && decide (p.rtag = r.rcd.rtag) && decide (p.op ||| 0x80 = r.rcd.op)) = some o) ∧
    run0.linkOk = true := by decide +kernel

/-- A buffer entry of thread 0: one byte at 0x2000. -/
def entry0 : SbEntry := ⟨0, 0, 0, 0x80, 0x2000, 3, false, [(0x2000, 1)], 1, true⟩

theorem witness_BoundaryEvents :
    (let c := run0.modHart 0 (fun x => (x.setSpr 0x000 7).setSpr 0x104 1 |>.setSpr 0x105 1)
     c.hartDom 0 = .on ∧ c.coreOk 0 = true ∧ (c.acceptable 0).isSome = true ∧ (c.hart 0).atBoundary = true) ∧
    (let c := run0.modHart 0 (fun x => { x.setSpr 0x104 1 with run := .wfi })
     c.acceptable 0 = none ∧ c.coreOk 0 = true ∧ c.intPend 0 ≠ 0 ∧ (c.hart 0).dbgStep = false) ∧
    (let c : Chip := { run0 with sb := [entry0] }
     c.sbOldest 0 0 = some entry0 ∧ (∀ w ∈ entry0.writes, w.1 < 2 ^ 53) ∧ (c.hart 0).dse = none) ∧
    (let x := { run0.hart 0 with timerArmed := true }
     x.timerArmed = true ∧ (run0.now - x.sprD 0x133).toNat < 2 ^ 63 ∧ ¬ (run0.now - 1).toNat < 2 ^ 63) := by decide +kernel

/-- A thread at U with its handler's stack at S and an escalation stack. -/
def handled : Chip :=
  (atPriv ((HartSt.reset.setSpr 0x00A 0x3000).setSpr 0x083 0x4000) 0).chip

theorem witness_TrapEntry :
    (handled.hart 0).active = 0 ∧ (handled.hart 0).tramMode = false ∧ (handled.hart 0).resident ≠ 15 ∧
    gives (do lazyWindow 0; lazyLoad 0 9 : M Unit) handled (fun _ c1 => let y := c1.hart 0
      decide (handlerPriv { cause := 0x0F } 0x0F y.priv = 1) && localForm (y.sprD 0x00A) &&
      gives (pushFrame 0 1 0x2F80 (frameWords y 0x1000 { cause := 0x0F } 0x0F false 1 none 0)) c1 (fun _ _ => true)) = true ∧
    gives (pushFrame 0 3 0x3F80 (frameWords (handled.hart 0) 0x1000 { cause := 0x0F } 0x0F false 3 (some 2) 0)) handled
      (fun _ _ => true) = true ∧ localForm 0x4000 = true ∧ localForm 4 = false := by decide +kernel

/-- A routine of BLEND at 0x3F00. -/
def micro0 : Micro :=
  ⟨0x3F00, 0x3F00, 16, 0, 0, ⟨4, 1, 2⟩, 0, [], .raw 0, .raw 0, .raw 0, .raw 0, false, false, false, false, [0x3F10], 0, false,
    .fetch, 0⟩
/-- Thread 0 in that routine, its word with SEQ code n, NEXT 0x3F20 and, in a dispatch, TDMODE 2. -/
def routine (n : Nat) : Chip :=
  { run0.modHart 0 (fun x => { x with micro := some micro0 }) with
    blend := [(0x3F00, BitVec.ofNat 144 (n * 2 ^ 140 + 0x3F20 * 2 ^ 126 + (if n = 6 then 2 else 0) * 2 ^ 115))] }

theorem witness_MicroResults :
    ((List.range 9).all (fun n => let c := routine (n + 1)
      c.microReady 0 micro0 && decide (c.latent = []) && decide (mwSeq (c.blendWord 0 0x3F00) = n + 1) &&
      gives (wordWork 0 0x3F00 (c.blendWord 0 0x3F00)) (c.modHart 0 (fun y => { y with
        micro := y.micro.map (fun k => { k with atCommit := false, count := k.count + 1 }) }))
        (fun r d => r.2.2.isNone && (d.hart 0).micro.isSome))) = true ∧
    sequencerOk (.sluice 0 0) = true ∧ waitAllowed ⟨.timeCompare, true, 0, 0⟩ (.sluice 0 0) = true ∧
    reached run0.now 0 = true ∧ reached run0.now 1 = false := by decide +kernel

/-- A Tram thread whose latch PREG_IDX names G1. -/
def trammed : State := demo (({ globals [.raw 6, .raw 7] with tram := { (globals []).tram with pregIdx := 385 } }).setSpr 0x000 0xB)

theorem witness_TramResults :
    (goes trammed (insnTramMove 0 0x100 0x101 0) (fun c => portReads 0x101 && portWrites 0x100 &&
       gives (portRead 0 0x101) c (fun w c1 => !isPoison w && gives (portWrite 0 0x100 w) c1 (fun _ _ => true))) &&
     goes trammed (insnTramImmediate 0 0x102 5) (fun c => portWrites 0x102 &&
       gives (portWrite 0 0x102 (.raw 5)) c (fun _ _ => true)) &&
     goes trammed (insnTramMove 0 0x100 0x101 3) (fun _ => true) &&
     goes trammed (insnTramMove 0 0x100 0x112 0) (fun _ => !portReads 0x112) &&
     goes trammed (insnTramImmediate 0 0x142 5) (fun _ => !portWrites 0x142)) = true := by decide +kernel

theorem witness_TimeResults :
    (let c := regs drift [(tim + 0x108, BitVec.ofNat 64 (2 ^ 63 + 2 ^ 52)), (tim + 0x100, 0x101)]
     let d : Chip := { c with time := { c.time with delay := some 5 } }
     let e := regs run0 [(tim + 0x108, BitVec.ofNat 64 (2 ^ 50)), (tim + 0x100, 0x100)]
     ({ c with time := { c.time with everMeasured := true } } : Chip).adjNow = 0 ∧ run0.time.residue = 0 ∧ unitsOf run0.time.counter + 2 ^ 16 < 2 ^ 48 * 10 ^ 9 * 2 ^ 16 ∧
     d.rf (tim + 0x108) 63 63 = 1 ∧ d.tsrc = 0 ∧ d.rf (tim + 0x108) 62 56 = 0 ∧ d.ptpPort = some 0 ∧ d.everLocked = true ∧
     d.time.delay = some 5 ∧ e.tsrc = 1 ∧ e.everLocked = true ∧ bit (e.reg (tim + 0x108)) 48 = false ∧ c.tsrc ≠ 1 ∧
     c.holdover = false ∧ c.locked = true ∧ e.locked = false ∧ c.mode ≠ .off) := by decide +kernel

/-- The demo with the link up and a register set. -/
def linkedUp (l : List (Nat × Datum)) (m : List (Nat × Word) := []) : Chip :=
  let c := regs run0 l
  { c with pcie := { c.pcie with released := true, linkUp := true, perst := false },
           mem := cellsSet c.mem (m.flatMap (fun e => wordCells e.1 e.2)) }

theorem witness_HostRequests :
    (let q : HostReq := ⟨3, none, 0x2000⟩
     let c := linkedUp [] [(0x2000, .raw 1), (0x2008, ⟨0xDF, 1⟩)]
     c.takes q = true ∧ c.latent = [] ∧ c.dramEnd < 2 ^ 38 + 1 ∧ isPoison (c.word 0x2000) = false ∧ isPoison (c.word 0x2008) = true ∧
     0x2000 + 8 ≤ c.dramEnd ∧ ((⟨3, none, 0x2008⟩ : HostReq).off.toNat < 2 ^ 38) ∧ c.pcie.linkUp = true ∧ c.pcie.perst = false ∧
     c.dom 93 = .on ∧ c.mode ≠ .off ∧ c.mode ≠ .standby ∧ c.pcie.loads = [] ∧
     (∃ r, c.reach .host (tim + 0x100) false = .ok r) ∧ mayWrite c (dmaPtrAt 0) .host = true) ∧
    (let q : HostReq := ⟨3, none, 2 ^ 38 + 0x400⟩
     let c := linkedUp [(pci + 0x100, BitVec.ofNat 64 (2 ^ 63 + 3))]
     c.takes q = true ∧ 2 ^ 38 ≤ q.off.toNat ∧ fld (c.reg (pci + 0x100)) 63 62 = 2 ∧
     fld (c.reg (pci + 0x100)) 15 0 = q.reqid.toNat ∧ isPoison (c.word 0x2000) = false ∧
     q.off.toNat - 2 ^ 38 + 1 ≤ c.dramEnd / 8 ∧ fld ((linkedUp []).reg (pci + 0x100)) 63 63 = 0) := by
  refine ⟨?_, by decide +kernel⟩
  refine ⟨by decide +kernel, by decide +kernel, by decide +kernel, by decide +kernel, by decide +kernel, by decide +kernel,
    by decide +kernel, by decide +kernel, by decide +kernel, by decide +kernel, by decide +kernel, by decide +kernel,
    by decide +kernel, ?_, by decide +kernel⟩
  cases h : (linkedUp [] [(0x2000, .raw 1), (0x2008, ⟨0xDF, 1⟩)]).reach .host (tim + 0x100) false with
  | ok r => exact ⟨r, rfl⟩
  | error e =>
    have : (match (linkedUp [] [(0x2000, .raw 1), (0x2008, ⟨0xDF, 1⟩)]).reach .host (tim + 0x100) false with
      | .ok _ => true | .error _ => false) = true := by decide +kernel
    rw [h] at this; cases this

/-- Queue 0 of 32 descriptors at 0x10000, one produced, its words as given. -/
def queued (l : List Word) : Chip :=
  linkedUp [(dmaCtlAt 0, BitVec.ofNat 64 (2 ^ 63 + 2 ^ 40 + 0x10)), (dmaPtrAt 0, BitVec.ofNat 64 (2 ^ 32))]
    (l.mapIdx (fun i w => (0x10000 + 8 * i, w)))

theorem witness_DmaResults :
    mayWrite run0 (dmaPtrAt 0) = true ∧ mayWrite run0 (dmaCtlAt 0) = true ∧
    (∀ e ∈ ([([.raw 0, .raw 0, .raw 0, .raw 0], 0, 0), ([.raw (BitVec.ofNat 64 (2 ^ 60 + 8)), .raw 0, .raw 0x2000, .raw 0], 0, 1),
        ([.raw (BitVec.ofNat 64 (2 ^ 61 + 8)), .raw 0, .raw 0x2000, .raw 0], 0, 2), ([⟨1, 0⟩, .raw 0, .raw 0, .raw 0], 4, 0)] :
        List (List Word × Nat × Nat)),
      (queued e.1).nextSlot 0 = some 0x10000 ∧ ((queued e.1).readDesc 0 0x10000).2.fence = false ∧ (queued e.1).latent = [] ∧
      ((queued e.1).readDesc 0 0x10000).2.err = e.2.1 ∧ ((queued e.1).readDesc 0 0x10000).2.op = e.2.2) ∧
    isPoison ((queued []).word 0x2000) = false ∧
    (let r : DmaRead := ⟨0, 0x10000, 8, 0, 0x3000, false, 0⟩
     let c : Chip := { queued [] with pcie := { (queued []).pcie with reads := [r] } }
     c.pcie.reads.find? (fun k => decide (k.q = 0)) = some r ∧ c.linkOk = true ∧ r.len = 8 ∧ r.done = 0 ∧
     r.maddr.toNat % 8 = 0 ∧ r.slot.toNat % 32 = 0 ∧ r.maddr.toNat ≠ r.slot.toNat + 24 ∧ r.maddr.toNat < c.dramEnd ∧
     r.slot.toNat < c.dramEnd ∧ isPoison (c.word r.maddr.toNat) = false ∧ c.pcie.loads = [] ∧ c.pcie.reads[0]? = some r ∧
     r.done + 4 < r.len) := by decide +kernel

/-- The demo with a completed SPDM session 1 on each path, every connection past ALGORITHMS, and a DOE object waiting. -/
def spdm (m : Mode) : Chip :=
  let c := linkedUp []
  { c with mode := m, pcie := { c.pcie with doeBusy := true },
           hdf := { c.hdf with sessions := [⟨1, false, true, 0⟩, ⟨1, true, true, 0⟩, ⟨2, true, false, 0⟩],
                               conns := [(0, ⟨true, true, true⟩), (1, ⟨true, true, true⟩)] } }

theorem witness_SpdmResults :
    (linkedUp []).linkOk = true ∧ (linkedUp []).pcie.doeBusy = false ∧
    (let c : Chip := { spdm .boot with hdf := { (spdm .boot).hdf with halted := some 2 } }
     c.spdmReach ⟨true, none⟩ = true ∧ c.hdf.halted = some 2 ∧ c.mode = .boot) ∧
    (let c := spdm .run
     let p : SpdmPath := ⟨true, none⟩
     c.spdmReach p = true ∧ c.hdf.halted = none ∧ c.hdf.lifecycle ≠ .scrapped ∧ p.secured = none ∧ c.conn p = ⟨true, true, true⟩ ∧
     (({ c with hdf := { c.hdf with sessions := [] } } : Chip).hdf.sessions.filter (fun z => z.i3c == p.i3c)).length < 2 ∧
     c.openOrSecured p = true ∧ c.securedOk p = false ∧ c.sessionOf ⟨true, some 2⟩ = some ⟨2, true, false, 0⟩) ∧
    (let c := spdm .provision
     let p : SpdmPath := ⟨false, some 1⟩
     c.spdmReach p = true ∧ c.securedOk p = true ∧ c.pcie.ide.length < 4 ∧ c.mode = .provision ∧ c.latent = [] ∧ c.nvm.dead = [] ∧
     (5 : BitVec 16).toInt.natAbs ≤ (ucalRange 0).natAbs) := by decide +kernel

/-- A module of a life-cycle state in a mode, with the nonce of a token outstanding. -/
def holding (m : Mode) (l : Lifecycle) (tok : List Byte) : Chip :=
  { spdm m with hdf := { (spdm m).hdf with lifecycle := l, nonces := [tokNonce tok], dbgs := [], next := none, resetHeld := false } }

/-- What the state says of a token is met; whether its signature verifies and its signer is known is left to the free
cryptographic functions of `Config`, and so stays a hypothesis here. -/
theorem witness_LifecycleTokens (m : Mode) (l : Lifecycle) (tok : List Byte) (kind : Nat) (signer : Option (BitVec 384))
    (hl : tok.length = 289) (hv : tokFld tok 0 1 = 1) (hk : tokKind tok = kind) (hs : tokFld tok 2 1 = l.code)
    (hc : tokClean tok = true) (hd : tokAt tok 16 48 = digestBytes Config.deviceId)
    (hsig : Config.ecdsaVerify (Config.sha384 (tok.take 96)) (tokAt tok 192 97) (tokAt tok 96 96) = true)
    (hkey : signer = some (Config.sha384 (tokAt tok 192 97))) : (holding m l tok).tokenOk tok kind signer = true := by
  simp [Chip.tokenOk, holding, hl, hv, hk, hs, hc, hd, hsig, hkey]

theorem witness_LifecycleTokens_states :
    (let tok : List Byte := []
     let p : SpdmPath := ⟨false, some 1⟩
     (∀ e ∈ ([(.provision, .manufacture), (.provision, .provisioned), (.maintenance, .deployed), (.maintenance, .rma),
         (.standby, .manufacture), (.run, .deployed), (.factoryTest, .rma)] : List (Mode × Lifecycle)),
       let c := holding e.1 e.2 tok
       c.mode = e.1 ∧ c.hdf.lifecycle = e.2 ∧ c.hdf.resetHeld = false ∧ c.acting = false ∧ c.latent = [] ∧ c.nvm.dead = [] ∧ c.hdf.halted = none ∧ c.hdf.next = none ∧
       c.spdmReach p = true ∧ c.securedOk p = true ∧ c.hdf.transLeft ≠ 0 ∧ c.tapHolds = false ∧ c.roomFor 1 0 = true) ∧
     classOk .run .deployed 1 = true ∧ classOk .run .deployed 2 = true ∧ classOk .factoryTest .rma 3 = true ∧
     claimKey (List.replicate 240 1) 0 ≠ none ∧ ([] : List Byte).length ≠ 289) := by decide +kernel

/-- A debug session 1 of a class for partition 0, thread 0 as given. -/
def debugged (cls : BitVec 2) (f : HartSt → HartSt) : Chip :=
  { run0.modHart 0 f with hdf := { run0.hdf with dbgs := [⟨1, cls, 0, 1, 1, 0⟩] } }
/-- A snapshot of nothing. -/
def snap (v p : Bool) : Snapshot := ⟨1, 0x20, 0, 2, v, p, 0, true, 0, [], []⟩

theorem witness_DebugSession :
    (∀ cls ∈ ([1, 2, 3] : List (BitVec 2)), (debugged cls id).hdf.dbgs.find? (fun k => decide (k.id = 1)) = some ⟨1, cls, 0, 1, 1, 0⟩) ∧
    (let c : Chip := { debugged 1 id with canary := { run0.canary with slots := [(2, snap true false)] } }
     c.canary.slots.lookup 2 = some (snap true false) ∧ c.canary.frozen = false ∧ c.canary.staging = none ∧
     c.rf trcCtlAt 63 63 = 0 ∧ c.rf trcCtlAt 11 0 = 0 ∧ c.ownTrace ⟨1, 1, 0, 1, 1, 0⟩ = true) ∧
    (let c := regs (debugged 1 id) [(Blk.dbg.base 0 + 0x100, 0x10000), (Blk.dbg.base 0 + 0x110, 1)]
     0 + 1 ≤ min c.trcRoom (c.rf (Blk.dbg.base 0 + 0x110) 31 0) ∧
     (c.rawWords (wordsFrom (c.rf (Blk.dbg.base 0 + 0x100) 51 16 * 2 ^ 16) 4)).2 = some [0, 0, 0, 0]) ∧
    (let d : DbgSession := ⟨1, 2, 0, 1, 1, 0⟩
     let c := debugged 2 (fun x => { x with haltReq := true })
     let e := debugged 2 (fun x => { x with run := .dbg, dbgBefore := .run })
     c.inScope d 0 = true ∧ (c.hart 0).run ≠ .dbg ∧ (c.hart 0).atBoundary = true ∧ c.haltDue 0 = true ∧
     e.inScope d 0 = true ∧ (e.hart 0).run = .dbg ∧ e.acceptable 0 = none ∧ gives (regRead 0 (.preg 5)) e (fun _ _ => true) = true ∧
     e.producible (.raw 1) = true ∧ gives (lazyPreg 0 5) e (fun _ _ => true) = true) ∧
    run0.region 0x2000 = .dram ∧ run0.latent = [] ∧ run0.producible (.raw 1) = true := by decide +kernel

/-- A module in RUN whose canary slot 1 holds a snapshot, frozen or not. -/
def kept (v p fr : Bool) : Chip :=
  { run0 with canary := { run0.canary with slots := [(1, snap v p)], frozen := fr } }

theorem witness_CanaryResults :
    mayWrite run0 (can + 0x110) = true ∧ mayWrite run0 (can + 0x108) = true ∧ mayWrite run0 (can + 0x118) = true ∧
    (kept true false true).canary.frozen = true ∧ run0.canary.staging = none ∧ 0x10000 + 1310848 ≤ run0.dramEnd ∧
    run0.dramEnd < 2 ^ 52 + 1310848 ∧
    (∀ p ∈ [true, false], (kept true p false).canary.slots.lookup 1 = some (snap true p) ∧ (kept true p false).canary.frozen = false ∧
      (snap true p).valid = true ∧ (snap true p).prot = p ∧ (kept true p false).canary.slots.lookup 3 = none) ∧
    (∀ t ∈ ([0x20, 0x18] : List Byte),
      let c : Chip := { kept false false true with canary := { (kept false false true).canary with
        staging := some { snap true false with trig := t } } }
      c.canary.staging = some { snap true false with trig := t } ∧ c.latent = [] ∧ c.commitSlot = some 0) ∧
    fld (((0x20 : Byte) ||| 0).zeroExtend 64) 4 3 = 0 ∧ fld (((0x18 : Byte) ||| 0).zeroExtend 64) 4 3 ≠ 0 ∧
    (run0.setReg (can + 0x108) (BitVec.ofNat 64 (2 ^ 62))).rf (can + 0x108) 62 62 = 1 ∧ run0.dom 96 = .on ∧
    (let c := run0.setReg (lmpPage + 0x108) (BitVec.ofNat 64 (2 ^ 44 + 0x10))
     let ring := c.reg (lmpPage + 0x108)
     let ptr := c.reg (lmpPage + 0x110)
     let p := ringBase ring + 512 * (fld ptr 63 32 % ringSlots ring)
     ringClosed ring = false ∧ ringHeld ptr < ringSlots ring ∧ c.region p = .dram ∧ c.dom (80 + ctlOf p) = .on) ∧
    ringClosed (run0.reg (lmpPage + 0x108)) = true := by decide +kernel

/-- BOOT at a step. -/
def booting (n : Nat) (f : Headframe → Headframe := id) : Chip :=
  { run0 with mode := .boot, hdf := f { run0.hdf with step := n, hart0 := false, halted := none, resetHeld := false } }

theorem witness_BootAndBlend :
    mayWrite run0 (bldAt 0 0x108) = true ∧ run0.rf (bldAt 0 0x118) 0 0 = 0 ∧ run0.rf (bldAt 0 0x110) 12 12 = 0 ∧
    (run0.setReg (bldAt 0 0x118) 1).rf (bldAt 0 0x118) 0 0 = 1 ∧
    (let c := run0.setReg (bldAt 0 0x100) 0x2000
     (∀ i ∈ [0, 1, 2], c.region (c.rf (bldAt 0 0x100) 51 6 * 64 + 8 * i) = .dram ∧
       c.word (c.rf (bldAt 0 0x100) 51 6 * 64 + 8 * i) = .raw 0)) ∧
    (let x : BlendXfer := ⟨0, microwords [0, 0, 0]⟩
     let c : Chip := { run0 with xfers := [(0, x)] }
     c.xfers.lookup 0 = some x ∧ c.midRoutine 0 = false ∧ c.dom (clusterDom 0) = .on) ∧
    mayWrite (booting 8) bootCtlAt .headframe = true ∧ (booting 8).mode = .boot ∧ (booting 8).hdf.step = 8 ∧
    (booting 8).hdf.hart0 = false ∧ (booting 8).faulted = false ∧ (booting 8).hdf.resetHeld = false ∧
    0x20000 + 0x10000 ≤ (booting 8).dramEnd ∧ (booting 8).mem = [] ∧
    (booting 8).acting = false ∧ (booting 8).latent = [] ∧ run0.latent = [] ∧
    mayWrite run0 extendAt = true ∧ 13 ≤ fld 0x00D0000000002000 55 52 ∧
    (∀ i ∈ List.range 6, run0.region (0x2000 + 8 * i) = .dram ∧ run0.word (0x2000 + 8 * i) = .raw 0) ∧
    (booting 0).hdf.halted = none ∧
    (let c := (booting 0 (fun f => { f with maint := false, record := true })).setReg (hdfPage + 0x100) 0x100
     c.hdf.step < 4 ∧ c.hdf.maint = false ∧ c.hdf.record = true ∧ c.rf (hdfPage + 0x100) 9 8 = 1 ∧ c.acting = false ∧
     ∀ i < 5, sget c.hdf.fuses i 0 ≤ ([0, 0, 0, 0, 0][i]?).getD 0) ∧
    0 < sget (booting 0 (fun f => { f with fuses := [(0, 1)] })).hdf.fuses 0 0 ∧
    (booting 7 (fun f => { f with maint := true })).hdf.maint = true ∧
    (booting 1 (fun f => { f with halted := some 1 })).hdf.halted = some 1 := by decide +kernel

/-- Every word of the image of a boot of two granules at 0x20000 is free of POISON. -/
theorem witness_BootAndBlend_image (i : Nat) : isPoison ((booting 8).word (0x20000 + 8 * i)) = false := by
  simp [Chip.word, show (booting 8).ctlFailed = 0 by decide +kernel, show (booting 8).mem = [] by decide +kernel, memWord,
    cellGet, isPoison]

/-- A module in a mode, its supply good, in a life-cycle state that may boot. -/
def moded (m : Mode) (f : Chip → Chip := id) : Chip :=
  f { run0 with mode := m, harts := [], power := { run0.power with vinMv := 48000, aux := true, vinStable := true },
                hdf := { run0.hdf with resetHeld := false, lifecycle := .deployed, bootHold := false } }

theorem witness_ModeResults :
    mayWrite (moded .run) (pwr + 0x100) .headframe = true ∧ (moded .run).modeOk 1 = true ∧ (moded .run).allPrecise = true ∧
    (moded .boot).modeOk 1 = false ∧ (moded .boot).hdf.resetHeld = false ∧
    (moded .quiesced).mode = .quiesced ∧ (moded .quiesced).acting = false ∧ (moded .quiesced).faulted = false ∧
    (∀ st ∈ [true, false], let c := moded .standby (fun c => { c with power := { c.power with vinStable := st } })
      c.mode = .standby ∧ c.hdf.lifecycle ≠ .scrapped ∧ c.tapHolds = false ∧ c.pins.modRstN = true ∧ c.acting = false ∧
      c.vinOk = true ∧ c.power.vinStable = st) ∧
    (moded .off).powered = true ∧ (moded .off).pins.thermtripN = true ∧ (moded .off).pins.pwrEn = true ∧
    (moded .run).canary.staging = none ∧ (moded .run).canary.frozen = false ∧ Mode.run.running = true ∧
    (moded .run).acting = false ∧ (moded .maintenance).acting = false ∧ ({ moded .quiesced with entered := .run } : Chip).entered = .run ∧
    ({ moded .quiesced with entered := .degraded } : Chip).entered = .degraded ∧
    (moded .standby (fun c => { c with pins := { c.pins with modRstN := false } })).mayBoot = true := by decide +kernel

theorem witness_EmergencyResults :
    (2 ≤ zoneOf 0 (BitVec.ofNat 16 (106 * 16)) ∧ 3 ≤ zoneOf 0 (BitVec.ofNat 16 (116 * 16)) ∧ zoneOf 0 0 = 0) ∧
    (run0.mode.running = true ∧ run0.acting = false ∧ run0.coreQuiet 0 = true ∧ (run0.hart 0).micro = none ∧ run0.canary.staging = none ∧ run0.canary.frozen = false ∧ run0.power.refLost = false) ∧
    (run0.dom 8 = .on ∧ sget run0.power.droops 0 0 ≠ 64 ∧
     sget ({ run0 with power := { run0.power with droops := [(0, 64)] } } : Chip).power.droops 0 0 = 64) ∧
    (let c := moded .survival (fun c => { c with power := { c.power with temps := [(0, BitVec.ofNat 16 (106 * 16))] } })
     c.mode = .survival ∧ c.overLimit = true ∧ c.tileOn 7 ≠ [] ∧ c.power.shed.getLsbD 7 = false ∧
     (c.tileOn 7).all c.clusterPrecise = true) ∧
    (let c := moded .survival
     c.overLimit = false ∧ c.vinOk = true ∧ c.power.refLost = false ∧ c.acting = false ∧ c.faulted = false) ∧
    (let c := moded .run (fun c => { c with power := { c.power with temps := [(0, BitVec.ofNat 16 (96 * 16))] } })
     (List.range 8).any (fun t => (tileSensors t).any (fun k => decide (throttleAt k * 16 ≤ (c.temp k).toInt))) = true) ∧
    (let c := moded .run (fun c => { c with power := { c.power with thermal := [(0, 20)] } })
     (∀ k ∈ tileSensors 0, (c.temp k).toInt ≤ (throttleAt k - 3) * 16) ∧ sget c.power.thermal 0 24 < 24 ∧
     c.power.raised.lookup 0 = none) ∧
    (let c := moded .run (fun c => { (c.setReg (Blk.pwr.base 0 + 0x108) 500) with power := { c.power with inputW := 900 } })
     c.limitW < 1100 ∧ c.limitW < c.power.inputW ∧ 8 < c.cur 0 ∧ (∀ u : Fin 8, c.cur u.val ≤ c.cur 0)) ∧
    (run0.coresLost.contains 0 = false ∧ run0.dom (clusterDom 0) = .on ∧ run0.spared.contains 0 = false ∧
     ({ run0 with spared := [0] } : Chip).spared.contains 0 = true ∧ (run0.hart 0).run ≠ .off) ∧
    (run0.ctlFailed.getLsbD 0 = false ∧ run0.dom 80 = .on) := by decide +kernel

theorem witness_DomainsAndTap :
    mayWrite (moded .run) domReqAt .headframe = true ∧ (moded .run).domErr 0 0 = 0 ∧ (moded .run).domErr 0 1 = 0 ∧
    (moded .run).domErr 0 2 = 0 ∧ (moded .run).domErr 93 0 ≠ 0 ∧
    (let c := moded .run (fun c => { c with power := { c.power with req := some (clusterDom 0, .off) } })
     c.power.req = some (clusterDom 0, .off) ∧ c.dom (clusterDom 0) = .on ∧ c.clusterPrecise 0 = true) ∧
    (let c := moded .run (fun c => { c with power := { c.power with req := some (8, .off) } })
     c.power.req = some (8, .off) ∧ c.acting = false ∧ ¬ (8 < 80 ∧ 8 % 10 < 8)) ∧
    tapAssigned 9 = false ∧ (∃ z ∈ (debugged 3 id).hdf.dbgs, z.cls = 3) ∧ (∀ z ∈ run0.hdf.dbgs, z.cls ≠ 3) := by decide +kernel

/-- NVM with one spare block, 1200, and no block moved yet but block 0 worn. -/
def worn : Nvm :=
  { run0.nvm with map := [], retired := (List.range 2048).filter (fun p => decide (1201 ≤ p)), writes := [(0, 2000000)] }

theorem worn_spares (q : Nat) : q ∈ worn.spares ↔ q = 1200 := by
  have hp : ∀ b, worn.phys b = b := fun b => rfl
  simp only [Nvm.spares, List.mem_filter, hp]
  simp [worn]
  constructor
  · intro h
    exact Classical.byContradiction fun hq => h.2.2 q (by omega) rfl
  · rintro rfl
    exact ⟨by omega, by omega, fun x hx => by omega⟩

theorem witness_DomainsAndTap_wear : run0.latent = [] ∧ 0 ∉ worn.dead ∧ run0.mode ≠ .off ∧ 1200 ∈ worn.spares ∧ (∀ q ∈ worn.spares, q ≠ 1200 →
    sget worn.writes 1200 0 < sget worn.writes q 0) ∧ sget worn.writes 1200 0 + 10 ^ 6 < sget worn.writes (worn.phys 0) 0 := by
  refine ⟨by decide +kernel, by decide +kernel, by decide +kernel, (worn_spares _).2 rfl, fun q hq hn => absurd ((worn_spares q).1 hq) hn, by decide⟩

theorem stale_preg {c : Chip} {x : HartSt} (h0 : c.stale x (.raw 0) = false) (h : ∀ e ∈ x.regs, c.stale x e.2 = false) (i : Nat) :
    c.stale x (x.preg i) = false := by
  unfold HartSt.preg sget
  cases hl : x.regs.lookup i with
  | none => simpa using h0
  | some w =>
    have : (i, w) ∈ x.regs := by
      clear h
      generalize x.regs = l at hl
      induction l with
      | nil => cases hl
      | cons e t ih =>
        simp only [List.lookup] at hl
        split at hl
        · rename_i he
          obtain ⟨a, b⟩ := e
          simp only [beq_iff_eq, Option.some.injEq] at he hl
          subst he hl
          exact List.mem_cons_self
        · exact List.mem_cons_of_mem _ (ih hl)
    simpa using h _ this

/-- The demo of plain integers is one in which registers are read with nothing else to do. -/
def simple : State := demo (globals [.raw 0x2000, .raw 5, .raw 2]) [(0x2000, .raw 0x0102030405060708), (0x2008, .raw 9)]

/-- What `Chip.Plain` says, decided on the registers that hold something. -/
def plainOk (c : Chip) : Bool :=
  decide (fld ((c.hart 0).sprD 0x081) 31 16 = 0) && !c.stale (c.hart 0) (.raw 0) &&
    (c.hart 0).regs.all (fun e => !c.stale (c.hart 0) e.2) && decide ((c.hart 0).priv = 3) &&
    !bit ((c.hart 0).sprD 0x111) 2 && decide (c.tlb = []) && decide (c.tables = []) && decide (c.latent = []) &&
    decide ((c.hart 0).bad = [])

theorem plain_of {c : Chip} (h : plainOk c = true) : c.Plain 0 := by
  simp only [plainOk, Bool.and_eq_true, decide_eq_true_eq, Bool.not_eq_true', List.all_eq_true] at h
  obtain ⟨⟨⟨⟨⟨⟨⟨⟨h1, h2⟩, h3⟩, h4⟩, h5⟩, h6⟩, h7⟩, h8⟩, h9⟩ := h
  exact ⟨h1, stale_preg h2 h3, by rw [if_pos h4]; exact h5, ⟨h6, h7⟩, ⟨h8, h9⟩⟩

/-- The instruction starts on `simple`, with nothing else to do before it or after its fetch, and its body completes. -/
def completes (i : Insn) : Bool := plainOk ((placed simple i).chip.landed 0) &&
  goes simple i (fun c => plainOk c && !(c.hart 0).dbgStep && gives i.body c (fun _ _ => true))

theorem witness_RegisterFrames :
    ([insnAdd, insnSub, insnMul, insnMulh, insnDiv, insnRem, insnAnd, insnOr, insnXor, insnShl, insnShr, insnSar, insnBfx, insnBfi,
       insnBperm, insnEq, insnFadd, insnFsub, insnFmul, insnFdiv, insnFma].all (fun i => completes (i 0 ⟨4, 3, 2⟩)) = true ∧
     [insnClz, insnCtz, insnPopc, insnTypeof, insnMkfix, insnFcvtIf, insnFcvtFi, insnFcvtFn, insnFcvtBf].all
       (fun i => completes (i 0 ⟨4, 3, 0⟩)) = true ∧
     [insnCmp, insnFcmp].all (fun i => completes (i 0 ⟨0, 3, 2⟩)) = true ∧
     [insnAddi, insnAndi, insnOri, insnXori, insnShli, insnShri, insnSari, insnShori].all (fun i => completes (i 0 ⟨4, 3, 5⟩)) = true ∧
     [insnCmpi, insnTagchk].all (fun i => completes (i 0 ⟨0, 3, 0⟩)) = true) := by decide +kernel

theorem witness_MemoryFrames :
    ([(insnLdw, 8), (insnLdb, 1), (insnLdh, 2), (insnLdq, 4), (insnLdd, 8)].all (fun (e : (Hart → IOps → Insn) × Nat) =>
       completes (e.1 0 ⟨4, 1, 0⟩) && goes simple (e.1 0 ⟨4, 1, 0⟩) (fun c => decide (c.region (0x2000 % 2 ^ 55) = .dram) &&
         !c.stale (c.hart 0) (c.seenWord 0 0x2000) && gives (addrOf 0 ⟨4, 1, 0⟩ e.2) c (fun a _ => decide (a = 0x2000)))) &&
     [(insnStw, 8), (insnStb, 1), (insnSth, 2), (insnStq, 4), (insnStd, 8)].all (fun (e : (Hart → IOps → Insn) × Nat) =>
       completes (e.1 0 ⟨2, 1, 0⟩) && goes simple (e.1 0 ⟨2, 1, 0⟩) (fun c => decide (c.sb = []) &&
         gives (addrOf 0 ⟨2, 1, 0⟩ e.2) c (fun a d => decide (a = 0x2000) && gives (src 0 2) c (fun _ f =>
           decide ((f.hart 0).regs = (d.hart 0).regs)))))) = true := by decide +kernel

/-! Commands that `WellFormed` refuses, one for each check. -/

theorem smoke_registers : WellFormed (.registerWrite .host 0x104 0) = false ∧ WellFormed (.irqForce .host 0x040 0) = false := by
  decide
theorem smoke_instructions : WellFormed (.send 0 ⟨0, 2, 0⟩ 9) = false ∧ WellFormed (.call 0 1 4) = false ∧
    WellFormed (.healRequest 0 (.raw 0) 0x2004) = false := by decide
theorem smoke_sequencers (k : UnitWait) : WellFormed (.seqWait (.sluice 8 0) k) = false ∧
    WellFormed (.seqWait (.stope 72 0) k) = false ∧ WellFormed (.unitWaitExpiry (.drift 4 0)) = false := ⟨rfl, rfl, rfl⟩
theorem smoke_frames : WellFormed (.dataFrame 1 (frame 0)) = false ∧ WellFormed (.ack 0 (frame 0)) = false ∧
    WellFormed (.syn 0 (frame 0)) = false ∧ WellFormed (.synAck 0 (frame 0)) = false ∧ WellFormed (.probe 0 (frame 0)) = false ∧
    WellFormed (.probeAck 0 (frame 0)) = false ∧
    WellFormed (.dataFrame 0 { frame 0 with recs := List.replicate 16 ⟨9, 0, 0, 0, 0, 0, []⟩ }) = false ∧
    WellFormed (.dataFrame 0 { frame 0 with recs := [⟨8, 0, 0, 0, 0, 1, []⟩] }) = true ∧
    WellFormed (.dataFrame 0 { frame 0 with recs := [⟨0x81, 0, 0, 0, 0, 1, []⟩] }) = false ∧
    WellFormed (.ptpMessage 0 ⟨0, 1, [], true⟩) = false := by decide
theorem smoke_ports (a : Bool) : WellFormed (.portLinkUp 0 3 a) = false := rfl
theorem smoke_numbers : WellFormed (.railFailed true 0) = false ∧ WellFormed (.pciReset 3) = false ∧ WellFormed (.readLive 1 9 0 0) = false ∧
    WellFormed (.domainTransitionComplete 96) = false ∧ WellFormed (.wearLevellingMove 1200) = false ∧
    WellFormed (.survivalEntry 89 0) = false ∧ WellFormed (.tapPrivate 0x7F) = false ∧ WellFormed (.tapPrivate 0xFF) = false := by decide
theorem smoke_lengths (p : SpdmPath) : WellFormed (.challenge p 0 []) = false ∧ WellFormed (.ideKm p 0 false []) = false ∧
    WellFormed (.keyUpdate p 3) = false ∧ WellFormed (.debugToken p []) = false ∧ WellFormed (.ownerClaim p [] []) = false ∧
    WellFormed (.rmaToken p [] []) = false ∧ WellFormed (.hostRegisterAccess ⟨0, none, 0⟩ 2 none) = false :=
  ⟨rfl, rfl, rfl, rfl, rfl, rfl, rfl⟩
theorem smoke_object : WellFormed (.doeRequest 1 (List.replicate 65537 0)) = false := by
  simp only [WellFormed, List.length_replicate]; decide

/-! Results taken from the manual's worked examples. -/

/-- R138, R140: `ADD ZR, ZR, ZR` is 0x030C_3000; `LDW K1, 8(K0)` is 0x6196_0001 and `RET` 0x0C00_0011. -/
theorem test_encodings : (insnAdd 0 ⟨48, 48, 48⟩).code = 0x030C3000 ∧ (insnLdw 0 ⟨25, 24, 1⟩).code = 0x61960001 ∧
    (insnRet 0 ⟨0, 0, 0⟩).code = 0x0C000011 := by decide
/-- R150: the value after each SHORI of the example. -/
theorem test_shori : ([(1, 0x08D1, 0x48D1), (0x48D1, 0x1678, 0x12345678), (0x12345678, 0x26AF, 0x48D159E26AF),
      (0x48D159E26AF, 0x0DEF, 0x0123456789ABCDEF)] : List (Datum × BitVec 14 × Datum)).all (fun e =>
    gives ((insnShori 0 ⟨4, 1, e.2.1⟩).body) (demo (globals [.raw e.1])).chip (fun _ c =>
      decide ((c.hart 0).preg 388 = .raw e.2.2))) = true := by decide +kernel
/-- R199, R205: FIX 0x7FFF_FFFF_FFFF_FFFF + FIX 1 becomes a bignum of three digits; TP moves 32 bytes on. -/
theorem test_promotion : (let s := demo ((((globals [⟨1, 0x7FFFFFFFFFFFFFFF⟩, ⟨1, 1⟩]).setPreg 417 (.raw 0x2100)).setSpr 0x003 0x2140).setSpr
      0x010 7)
    gives ((insnGadd 0 o412).body) s.chip (fun _ c => decide ((c.hart 0).preg 388 = ⟨0x4E, 0x2100⟩) &&
      decide ((c.hart 0).tp = 0x2120) && decide (c.seenWord 0 0x2100 = ⟨0x10, 0x3F000000007⟩) &&
      decide (c.seenWord 0 0x2108 = .raw 0x8000000000000000) && decide (c.seenWord 0 0x2118 = .raw 0))) = true := by decide +kernel
/-- R22: at 42.0 V the input limit is 1,050 W. -/
theorem test_limit : ({ run0 with power := { run0.power with vinMv := 42000 } } : Chip).limitW = 1050 := by decide +kernel
/-- R47: the flags of TYP_ROW[0x01] and TYP_ROW[0x0E] at reset are 0x60 and 0xA8. -/
theorem test_type_rows : Chip.reset.row 0x01 = 0x0000000100000060 ∧ Chip.reset.row 0x0E = 0x0000000E000000A8 := by decide +kernel
/-- No row of the table gives bits, so no word spells a command. -/
theorem test_decode : decodeTableWord 64 0 = none := rfl

/-- The reset state meets the premise of `StepInvariant`. -/
theorem witness_StepInvariant : State.reset.chip.asserted =
    State.reset.chip.enabledPages.filter (fun p => decide (State.reset.chip.reg (p + 0x28) &&& State.reset.chip.reg (p + 0x30) ≠ 0)) ∧
    State.reset.pending = [] := by decide +kernel

end Sys2Proof.Tests
end

section
/-! PROOFS. Register specifiers (R85, R87, R88): what a write of a physical register leaves, that a lazy load and the errors
of a stored register are idle where nothing waits, what a specifier then reads and writes, and which register it selects. -/
namespace Sys2Proof.Machine

/-! A hart's registers after a write. -/

@[simp] theorem HartSt.preg_dirty (x : HartSt) (g : Option Nat) (i : Nat) : (x.dirty g).preg i = x.preg i := by
  cases g <;> rfl
theorem HartSt.sprW_dirty_other (x : HartSt) (g : Option Nat) {n : Nat} (hn : n ≠ 0x081) : (x.dirty g).sprW n = x.sprW n := by
  cases g with
  | none => rfl
  | some g => simp [HartSt.dirty, HartSt.setSpr, HartSt.setSprW, HartSt.sprW, sget, lookup_sset_other _ _ _ hn]

/-- SP and TP keep the datum, every other register the word (R85). -/
theorem HartSt.preg_putPreg (x : HartSt) (i j : Nat) (w : Word) :
    (x.putPreg i w).preg j = if j = i then (if i ≥ 416 then .raw w.dat else w) else x.preg j := by
  rw [HartSt.putPreg, HartSt.preg_dirty]
  exact sget_sset x.regs i j _ _
theorem HartSt.sprW_putPreg_other (x : HartSt) (i : Nat) (w : Word) {n : Nat} (hn : n ≠ 0x081) :
    (x.putPreg i w).sprW n = x.sprW n := (x.setPreg i w).sprW_dirty_other _ hn

theorem HartSt.cwp_lt (x : HartSt) : x.cwp < 16 := fld_lt x.winPtr 3 0

/-- A write of a register leaves the thread's other registers, its special registers but DIRTY_MASK (R124), the other threads
and memory as they were. -/
theorem Chip.putPreg_frame (c : Chip) (h : Hart) (i : Nat) (w : Word) :
    let t := c.modHart h (fun x => x.putPreg i w)
    (∀ j, j ≠ i → (t.hart h).preg j = (c.hart h).preg j) ∧ (∀ n, n ≠ 0x081 → (t.hart h).sprW n = (c.hart h).sprW n) ∧
      (∀ k, k ≠ h → t.hart k = c.hart k) ∧ t.mem = c.mem := by
  refine ⟨fun j hj => ?_, fun n hn => ?_, fun k hk => c.hart_modHart_other _ hk, rfl⟩
  · simp [HartSt.preg_putPreg, hj]
  · rw [Chip.hart_modHart, HartSt.sprW_putPreg_other _ _ _ hn]

/-! Nothing to load, meet or heal. -/

theorem groupOfPreg_lt {w i g : Nat} (hg : groupOfPreg w i = some g) : g < 16 := by
  unfold groupOfPreg at hg
  simp only at hg
  (repeat' split at hg) <;> cases hg <;> decide

/-- DIRTY_MASK[31:16] holds a bit for each group that awaits its lazy load (R123). -/
theorem HartSt.pending_eq_false {x : HartSt} (hx : fld (x.sprD 0x081) 31 16 = 0) {g : Nat} (hg : g < 16) : x.pending g = false := by
  have hb := testBit_fld (x.sprD 0x081) (hi := 31) (lo := 16) g
  simpa [hx, hg, HartSt.pending] using hb.symm

theorem lazyLoad_idle {h : Hart} {g : Nat} {c : Chip} (hg : (c.hart h).pending g = false) : lazyLoad h g c = .ok () c := by
  rw [lazyLoad, bind_ok (hartM_run h c), hg]
  rfl

theorem lazyPreg_plain {h : Hart} {c : Chip} (hc : c.Plain h) (i : Nat) : lazyPreg h i c = .ok () c := by
  rw [lazyPreg, bind_ok (hartM_run h c)]
  cases hg : groupOfPreg (c.hart h).cwp i with
  | none => rfl
  | some g => exact lazyLoad_idle (HartSt.pending_eq_false hc.lazies (groupOfPreg_lt hg))

theorem Chip.meetReg_sound {c : Chip} {h : Hart} (hb : (c.hart h).bad = []) (i : Nat) : c.meetReg h i = c := by
  simp [Chip.meetReg, hb]

theorem readPreg_plain {h : Hart} {c : Chip} (hc : c.Plain h) (i : Nat) : readPreg h i c = .ok ((c.hart h).preg i) c := by
  have hm : (modify (fun c => c.meetReg h i) : M PUnit) c = .ok ⟨⟩ c := by
    rw [modify_run, Chip.meetReg_sound hc.sound.2]
  rw [readPreg, bind_ok (lazyPreg_plain hc i), bind_ok hm, bind_ok (get_run c)]
  simp [hc.healed i]

/-! What a specifier reads and writes. -/

theorem readSpec_nl (h : Hart) (c : Chip) : readSpec h 49 c = .ok wNil c := rfl

theorem readSpec_none {h : Hart} {r : BitVec 6} {c : Chip} (hr : r ≠ 49) (hp : pregOf (c.hart h).cwp r = none) :
    readSpec h r c = .ok (.raw 0) c := by
  rw [readSpec, if_neg hr, bind_ok (hartM_run h c), hp]
  rfl

theorem readSpec_plain {h : Hart} {r : BitVec 6} {i : Nat} {c : Chip} (hc : c.Plain h) (hr : r ≠ 49)
    (hp : pregOf (c.hart h).cwp r = some i) : readSpec h r c = .ok ((c.hart h).preg i) c := by
  rw [readSpec, if_neg hr, bind_ok (hartM_run h c), hp]
  exact readPreg_plain hc i

theorem writeSpec_none {h : Hart} {r : BitVec 6} {c : Chip} (hp : pregOf (c.hart h).cwp r = none) (w : Word) :
    writeSpec h r w c = .ok () c := by
  rw [writeSpec, bind_ok (hartM_run h c), hp]
  rfl

theorem writeSpec_plain {h : Hart} {r : BitVec 6} {i : Nat} {w : Word} {c : Chip} (hc : c.Plain h)
    (hp : pregOf (c.hart h).cwp r = some i) (hw : i < 416 ∨ isPoison w = false) :
    writeSpec h r w c = .ok () (c.modHart h (fun x => x.putPreg i w)) := by
  have hn : (!(decide (i ≥ 416) && isPoison w)) = true := by
    rcases hw with hi | hw
    · simp [Nat.not_le.2 hi]
    · simp [hw]
  rw [writeSpec, bind_ok (hartM_run h c), hp]
  simp only
  rw [bind_ok (need_true _ c hn), bind_ok (lazyPreg_plain hc i), modM_run]

/-- SP and TP refuse POISON (R87). -/
theorem writeSpec_poison {h : Hart} {r : BitVec 6} {i : Nat} {w : Word} {c : Chip} (hp : pregOf (c.hart h).cwp r = some i)
    (hi : 416 ≤ i) (hw : isPoison w = true) : writeSpec h r w c = .error (.trap { cause := cPoison }) c := by
  rw [writeSpec, bind_ok (hartM_run h c), hp]
  exact bind_error (need_false _ c (by simp [hi, hw]))

/-! The register a specifier selects. -/

theorem pregOf_zr (w : Nat) : pregOf w 48 = none := rfl
theorem pregOf_nl (w : Nat) : pregOf w 49 = none := rfl
theorem pregOf_sp_or_tp (w : Nat) {r : BitVec 6} (hr : r = 50 ∨ r = 51) : ∃ i, pregOf w r = some i ∧ 416 ≤ i := by
  rcases hr with rfl | rfl
  · exact ⟨416, rfl, by omega⟩
  · exact ⟨417, rfl, by omega⟩

/-- Of the specifiers that name a register (R86), ZR and NL alone select none (R85). -/
theorem pregOf_eq_some {w : Nat} {r : BitVec 6} (hr : r.toNat < 52) (hzr : r ≠ 48) (hnl : r ≠ 49) : ∃ i, pregOf w r = some i := by
  have hz : r.toNat ≠ 48 := fun e => hzr (BitVec.eq_of_toNat_eq e)
  have hn : r.toNat ≠ 49 := fun e => hnl (BitVec.eq_of_toNat_eq e)
  cases hp : pregOf w r with
  | some i => exact ⟨i, rfl⟩
  | none =>
    unfold pregOf at hp
    simp only at hp
    (repeat' split at hp) <;> cases hp
    omega

/-- Specifiers below 48 select a global or a register of the ring (R85). -/
theorem pregOf_lt_400 {w i : Nat} {r : BitVec 6} (hw : w < 16) (hr : r.toNat < 48) (hi : pregOf w r = some i) : i < 400 := by
  unfold pregOf at hi
  simp only at hi
  (repeat' split at hi) <;> cases hi <;> omega

/-- The specifier, as a number, by which window w names physical register i (R85, R88). -/
def specifierIn (w i : Nat) : Nat :=
  if 416 ≤ i then i - 416 + 50
  else if 384 ≤ i then i - 384
  else
    let k := (i + 384 - 24 * w) % 384
    if k < 8 then 40 + k else if k < 24 then 16 + k else k - 8

/-- A specifier is found again from the window and the register it selects. -/
theorem specifierIn_pregOf {w i : Nat} {r : BitVec 6} (hw : w < 16) (hi : pregOf w r = some i) : specifierIn w i = r.toNat := by
  unfold pregOf at hi
  unfold specifierIn
  simp only at hi ⊢
  (repeat' split at hi) <;> cases hi <;> (repeat' split) <;> omega

/-- Specifiers that select a register select different ones. -/
theorem pregOf_injective {w : Nat} {r q : BitVec 6} (hw : w < 16) (hr : r.toNat < 52) (hzr : r ≠ 48) (hnl : r ≠ 49)
    (he : pregOf w r = pregOf w q) : r = q := by
  obtain ⟨i, hi⟩ := pregOf_eq_some (w := w) hr hzr hnl
  exact BitVec.eq_of_toNat_eq ((specifierIn_pregOf hw hi).symm.trans (specifierIn_pregOf hw (he ▸ hi)))

/-- R88: the P registers of a window are the A registers of the next. -/
theorem pregOf_p_eq_a_next (w : Nat) {k : Nat} (hk : k < 8) :
    pregOf w (BitVec.ofNat 6 (16 + k)) = pregOf ((w + 1) % 16) (BitVec.ofNat 6 (40 + k)) := by
  have hp : (BitVec.ofNat 6 (16 + k)).toNat = 16 + k := by rw [BitVec.toNat_ofNat]; omega
  have ha : (BitVec.ofNat 6 (40 + k)).toNat = 40 + k := by rw [BitVec.toNat_ofNat]; omega
  have hlp : ¬16 + k < 16 ∧ 16 + k < 24 := by omega
  have hla : ¬40 + k < 16 ∧ ¬40 + k < 24 ∧ ¬40 + k < 40 ∧ 40 + k < 48 := by omega
  simp only [pregOf, hp, ha, hlp, hla, if_true, if_false, Option.some.injEq]
  omega

/-- The module at reset meets the premise for every thread. -/
theorem reset_plain (h : Hart) : State.reset.chip.Plain h where
  lazies := by
    show fld (HartSt.reset.sprD 0x081) 31 16 = 0
    decide
  healed _ := by
    show State.reset.chip.stale HartSt.reset (.raw 0) = false
    decide +kernel
  flat := by
    show if HartSt.reset.priv = 3 then bit (HartSt.reset.sprD 0x111) 2 = false else fld (HartSt.reset.sprD 0x111) 1 0 = 0
    decide
  uncached := ⟨rfl, rfl⟩
  sound := ⟨rfl, rfl⟩

/-- Settles O58: with nothing to load, meet or heal a specifier comes to a plain read or write of the register it selects,
and `specifierIn` finds the specifier again from that register. -/
theorem registerSpecifiers : Obligations.RegisterSpecifiers := by
  unfold Obligations.RegisterSpecifiers
  refine ⟨fun h r w c hc => ⟨?zr, ?nl, ?window, ?pointer⟩, ?distinct, fun w k _ hk => pregOf_p_eq_a_next w hk⟩
  case zr =>
    rintro rfl
    exact ⟨readSpec_none (by decide) (pregOf_zr _), writeSpec_none (pregOf_zr _) w⟩
  case nl =>
    rintro rfl
    exact ⟨readSpec_nl h c, writeSpec_none (pregOf_nl _) w⟩
  case window =>
    intro hr
    have hzr : r ≠ 48 := by rintro rfl; simp at hr
    have hnl : r ≠ 49 := by rintro rfl; simp at hr
    obtain ⟨i, hp⟩ := pregOf_eq_some (w := (c.hart h).cwp) (by omega) hzr hnl
    have hi : i < 400 := pregOf_lt_400 (c.hart h).cwp_lt hr hp
    have hi' : i < 416 := by omega
    refine ⟨i, _, hp, hi, readSpec_plain hc hnl hp, writeSpec_plain hc hp (.inl hi'), ?_, c.putPreg_frame h i w⟩
    simp [HartSt.preg_putPreg, Nat.not_le.2 hi']
  case pointer =>
    intro hr
    have hnl : r ≠ 49 := by rcases hr with rfl | rfl <;> decide
    obtain ⟨i, hp, hi⟩ := pregOf_sp_or_tp (c.hart h).cwp hr
    refine ⟨i, hp, hi, fun htag => ?read, writeSpec_poison hp hi, fun hw => ?write⟩
    case read => rw [readSpec_plain hc hnl hp, Word.raw, ← htag]
    case write =>
      obtain ⟨hregs, -, hharts, hmem⟩ := c.putPreg_frame h i w
      exact ⟨_, writeSpec_plain hc hp (.inr hw), by simp [HartSt.preg_putPreg, hi], hregs, hharts, hmem⟩
  case distinct =>
    intro w r q hw hr _ hzr hnl he
    exact pregOf_injective hw hr hzr hnl he

end Sys2Proof.Machine
end

section
/-! PROOFS. The field instructions (R152): their operations in the terms of R152's pseudocode, and BFI's three sources. -/
namespace Sys2Proof.Machine

/-! The commands run their instructions. -/

theorem exec_bfx (h : Hart) (o : AOps) (s : State) : exec (.bfx h o) s = runs h (insnBfx h o) s := rfl
theorem exec_bfi (h : Hart) (o : AOps) (s : State) : exec (.bfi h o) s = runs h (insnBfi h o) s := rfl
theorem exec_bperm (h : Hart) (o : AOps) (s : State) : exec (.bperm h o) s = runs h (insnBperm h o) s := rfl

/-! The operands of R152. -/

/-- A field of n + 1 bits is the slice of that width. -/
theorem fld_eq_extractLsb' (d : Datum) (lo n : Nat) : fld d (lo + n) lo = (d.extractLsb' lo (n + 1)).toNat := by
  rw [fld, Nat.add_sub_cancel_left, BitVec.extractLsb'_toNat]

/-- pos: bits [5:0] of rt's datum. -/
theorem fieldPos_eq (b : Datum) : fld b 5 0 = (b.extractLsb' 0 6).toNat := fld_eq_extractLsb' b 0 5

/-- 2^len - 1: the mask before it is shifted to pos. -/
theorem fieldMask_eq (b : Datum) : fieldMask b = BitVec.ofNat 64 (2 ^ ((b.extractLsb' 8 6).toNat + 1) - 1) := by
  rw [fieldMask, fld_eq_extractLsb' b 8 5]

theorem bfxD_eq (a b : Datum) : bfxD a b = (a >>> (b.extractLsb' 0 6).toNat) &&&
    BitVec.ofNat 64 (2 ^ ((b.extractLsb' 8 6).toNat + 1) - 1) := by
  rw [bfxD, fieldPos_eq, fieldMask_eq]

theorem bfiD_eq (d a b : Datum) :
    let pos := (b.extractLsb' 0 6).toNat
    let ones : Datum := BitVec.ofNat 64 (2 ^ ((b.extractLsb' 8 6).toNat + 1) - 1)
    bfiD d a b = (d &&& ~~~(ones <<< pos)) ||| ((a <<< pos) &&& (ones <<< pos)) := by
  rw [bfiD, fieldPos_eq, fieldMask_eq]

/-! BPERM's selectors. -/

/-- The byte of rs that a selector of four bits names, or 0 where its bit 3 is set: as `bpermD` computes it. -/
def selectedByte (a b : Datum) (i : Nat) : Byte :=
  let s := fld b (4 * i + 3) (4 * i)
  if s ≥ 8 then 0 else BitVec.ofNat 8 (fld a (8 * s + 7) (8 * s))

theorem bpermD_eq (a b : Datum) : bpermD a b = dat (ofBytes ((List.range 8).map (selectedByte a b))) := rfl

/-- A selector is 8 or more where its bit 3 is set. -/
theorem selector_ge_iff (b : Datum) (i : Nat) : fld b (4 * i + 3) (4 * i) ≥ 8 ↔ b.getLsbD (4 * i + 3) = true := by
  have hlt : fld b (4 * i + 3) (4 * i) < 16 := by simpa using fld_lt b (4 * i + 3) (4 * i)
  have hbit : (fld b (4 * i + 3) (4 * i)).testBit 3 = b.getLsbD (4 * i + 3) := by
    simp [testBit_fld, bit, BitVec.getLsbD]
  rw [← hbit, Nat.testBit_eq_decide_div_mod_eq, decide_eq_true_iff]
  omega

/-- A selector below 8 is its low three bits. -/
theorem selector_of_lt {b : Datum} {i : Nat} (hs : fld b (4 * i + 3) (4 * i) < 8) :
    fld b (4 * i + 3) (4 * i) = (b.extractLsb' (4 * i) 3).toNat := by
  have hlow : fld b (4 * i + 3) (4 * i) % 8 = (b.extractLsb' (4 * i) 3).toNat := by
    rw [fld, Nat.add_sub_cancel_left, BitVec.extractLsb'_toNat]
    omega
  omega

/-- A byte of BPERM's result, in the terms of R152. -/
theorem selectedByte_eq (a b : Datum) (i : Nat) : selectedByte a b i = if b.getLsbD (4 * i + 3) then 0
    else a.extractLsb' (8 * (b.extractLsb' (4 * i) 3).toNat) 8 := by
  unfold selectedByte
  by_cases hs : fld b (4 * i + 3) (4 * i) ≥ 8
  · rw [if_pos hs, if_pos ((selector_ge_iff b i).1 hs)]
  · rw [if_neg hs, if_neg (mt (selector_ge_iff b i).2 hs), fld_eq_extractLsb' a _ 7, BitVec.ofNat_toNat,
      BitVec.setWidth_eq, selector_of_lt (Nat.lt_of_not_le hs)]

/-- A datum whose eight bytes are the selected ones is BPERM's result. -/
theorem bpermD_of_bytes {a b r : Datum} (hr : ∀ i : Nat, i < 8 → r.extractLsb' (8 * i) 8 = if b.getLsbD (4 * i + 3) then 0
    else a.extractLsb' (8 * (b.extractLsb' (4 * i) 3).toNat) 8) : bpermD a b = r := by
  have hbytes : (List.range 8).map (selectedByte a b) = (List.range 8).map (fun i => r.extractLsb' (8 * i) 8) :=
    List.map_congr_left fun i hi => (selectedByte_eq a b i).trans (hr i (List.mem_range.1 hi)).symm
  rw [bpermD_eq, hbytes, dat_bytes]

/-- BFI completes with its result in rd, which it reads as its third source (R149, R152). -/
theorem bodyBfi_run {h : Hart} {o : AOps} {a b d : Word} {c c1 c2 c3 c4 : Chip} (hn : named [o.rd, o.rs, o.rt])
    (ha : src h o.rs c = .ok a c1) (hb : src h o.rt c1 = .ok b c2) (hd : src h o.rd c2 = .ok d c3)
    (pa : c3.ptr a = false) (pb : c3.ptr b = false) (pd : c3.ptr d = false)
    (hw : writeSpec h o.rd (.raw (bfiD d.dat a.dat b.dat)) c3 = .ok () c4) : bodyBfi h o c = .ok .seq c4 := by
  unfold bodyBfi
  rw [bind_ok (specsOk_named hn c), bind_ok ha, bind_ok hb, bind_ok hd, bind_ok (rawSrc_ok pa), bind_ok (rawSrc_ok pb),
    bind_ok (rawSrc_ok pd), bind_ok hw]
  rfl

/-- Settles O2: each of the three instructions runs to the write of its result in rd, and the result is the one that the
pseudocode of R152 gives. -/
theorem fieldInstructionResults : Obligations.FieldInstructionResults := by
  unfold Obligations.FieldInstructionResults
  intro s h o a b d c c1 c2 c3 c4 hn ha hb pa pb
  refine ⟨?bfx, ?bfi, ?bperm⟩
  case bfx =>
    intro hs hw
    rw [exec_bfx]
    exact runs_of_starts hs (raw2_run hn ha hb pa pb (pure_run _ c2) (by rwa [bfxD_eq]))
  case bfi =>
    intro hs hd pa' pb' pd hw
    rw [exec_bfi]
    exact runs_of_starts hs (bodyBfi_run hn ha hb hd pa' pb' pd (by rwa [bfiD_eq]))
  case bperm =>
    intro r hs hr hw
    rw [exec_bperm]
    exact runs_of_starts hs (raw2_run hn ha hb pa pb (pure_run _ c2) (by rwa [bpermD_of_bytes hr]))

end Sys2Proof.Machine
end

section
/-! PROOFS. The special registers of every thread (R132) as a whole, and that the activity of memory, of the collector's heals
and of the records of errors leaves them alone. -/
namespace Sys2Proof.Machine

/-- The special registers that the threads hold. -/
def Chip.sprs (c : Chip) (h : Hart) : Sparse Word := (c.hart h).spr

theorem sprs_of_harts {c d : Chip} (hd : d.harts = c.harts) : d.sprs = c.sprs := by
  funext g
  rw [Chip.sprs, Chip.sprs, Chip.hart, Chip.hart, hd]

/-- A change of a thread that is none of its special registers. -/
theorem sprs_modHart {h : Hart} {f : HartSt → HartSt} (hf : ∀ x, (f x).spr = x.spr) (c : Chip) :
    (c.modHart h f).sprs = c.sprs := by
  funext g
  by_cases hg : g = h
  · rw [hg, Chip.sprs, Chip.hart_modHart, hf]
    rfl
  · rw [Chip.sprs, Chip.hart_modHart_other _ _ hg]
    rfl
theorem sprs_setHart {h : Hart} {x : HartSt} {c : Chip} (hx : x.spr = (c.hart h).spr) : (c.setHart h x).sprs = c.sprs := by
  funext g
  by_cases hg : g = h
  · rw [hg, Chip.sprs, Chip.hart_setHart, hx]
    rfl
  · rw [Chip.sprs, Chip.hart_setHart_other _ _ hg]
    rfl

/-- A choice between modules of which `p` tells the same. -/
theorem keeps_ite {β : Type} {p : Chip → β} {b : Prop} [Decidable b] {c d e : Chip} (hd : p d = p c) (he : p e = p c) :
    p (if b then d else e) = p c := by
  split
  · exact hd
  · exact he
/-- Of the module a pair begins with, `p` tells the same as of another. -/
def FstKeeps {α β : Type} (p : Chip → β) (c : Chip) (r : Chip × α) : Prop := p r.1 = p c
theorem fstKeeps_ite {α β : Type} {p : Chip → β} {b : Prop} [Decidable b] {c : Chip} {r s : Chip × α} (hr : FstKeeps p c r)
    (hs : FstKeeps p c s) : FstKeeps p c (if b then r else s) := by
  split
  · exact hr
  · exact hs

/-! Records of errors and events. -/

@[simp] theorem setReg_sprs (c : Chip) (o : Nat) (v : Datum) : (c.setReg o v).sprs = c.sprs := rfl
@[simp] theorem setRf_sprs (c : Chip) (o hi lo v : Nat) : (c.setRf o hi lo v).sprs = c.sprs := rfl
@[simp] theorem settle_sprs (c : Chip) : c.settle.sprs = c.sprs := sprs_of_harts c.settle_harts
@[simp] theorem err_sprs (c : Chip) (g : Nat) (w : Requester) (k o : Nat) : (c.err g w k o).sprs = c.sprs :=
  sprs_of_harts (c.err_harts g w k o)
@[simp] theorem log_sprs (c : Chip) (k i e : Nat) (p0 p1 : Datum) : (c.log k i e p0 p1).sprs = c.sprs :=
  sprs_of_harts (c.log_harts k i e p0 p1)
@[simp] theorem unpopulated_sprs (c : Chip) (w : Requester) (p : Nat) : (c.unpopulated w p).sprs = c.sprs := err_sprs _ _ _ _ _
@[simp] theorem pmc_sprs (c : Chip) (h : Hart) (ev n : Nat) : (c.pmc h ev n).sprs = c.sprs :=
  pmc_keeps Chip.sprs setReg_sprs c h ev n
@[simp] theorem freeze_sprs (c : Chip) (b : Nat) (w : Datum) : (c.freeze b w).sprs = c.sprs := by
  unfold Chip.freeze
  split
  · rfl
  · split
    · rfl
    · exact log_sprs _ _ _ _ _ _
@[simp] theorem notifyMc_sprs (c : Chip) (l : List Hart) (a : Datum) (n : Nat) : (c.notifyMc l a n).sprs = c.sprs := by
  unfold Chip.notifyMc
  exact foldl_keeps Chip.sprs _ (fun d g => sprs_modHart (fun x => by split <;> rfl) d) l c
@[simp] theorem machineCheck_sprs (c : Chip) (l : List Hart) (a : Datum) (n : Nat) (w : Datum) :
    (c.machineCheck l a n w).sprs = c.sprs := (freeze_sprs _ _ _).trans (notifyMc_sprs _ _ _ _)

/-! Faults met in arrays and in HBM. -/

@[simp] theorem forgetAll_sprs (c : Chip) (sel : Place → Bool) : (c.forgetAll sel).sprs = c.sprs := keeps_ite rfl rfl
@[simp] theorem poisonLine_sprs (c : Chip) (l : Nat) : (c.poisonLine l).sprs = c.sprs := rfl
@[simp] theorem poisonCopy_sprs (c : Chip) (k : CacheKind) (u p : Nat) : (c.poisonCopy k u p).sprs = c.sprs := rfl
@[simp] theorem arrayLog_sprs (c : Chip) (s : Nat × Nat) (place n : Nat) (a d : Datum) :
    (c.arrayLog s place n a d).sprs = c.sprs := keeps_ite (log_sprs _ _ _ _ _ _) (log_sprs _ _ _ _ _ _)
theorem poisonLines_sprs (l : List Nat) (c : Chip) : (l.foldl Chip.poisonLine c).sprs = c.sprs :=
  foldl_keeps Chip.sprs _ poisonLine_sprs l c
theorem lineError_sprs (c : Chip) (tag : Bool) (i n : Nat) : (c.lineError tag i n).sprs = c.sprs := by
  unfold Chip.lineError
  extract_lets m pa lines c1 garble corrected detected
  have hg : ∀ d : Chip, (garble d).sprs = d.sprs := fun d => by
    refine foldl_keeps Chip.sprs _ (fun _ _ => ?_) _ d
    exact sprs_of_harts rfl
  have hc : ∀ d : Chip, (corrected d).sprs = d.sprs := fun d => (log_sprs _ _ _ _ _ _).trans (err_sprs _ _ _ _ _)
  have hd : ∀ d : Chip, (detected d).sprs = d.sprs := fun d => (poisonLines_sprs lines _).trans (log_sprs _ _ _ _ _ _)
  exact keeps_ite (hc c1) (keeps_ite (hd c1) (keeps_ite (hd _) (keeps_ite ((hc _).trans (hg _)) (hg _))))
theorem meet_sprs (c : Chip) (e : Latent) : (c.meet e).sprs = c.sprs := by
  have ha : ∀ p s place a d, ((c.forget p).arrayLog s place e.n a d).sprs = c.sprs := fun _ _ _ _ _ => arrayLog_sprs _ _ _ _ _ _
  unfold Chip.meet
  split
  · exact lineError_sprs _ _ _ _
  · exact lineError_sprs _ _ _ _
  · exact keeps_ite (ha _ _ _ _ _) ((poisonCopy_sprs _ _ _ _).trans (ha _ _ _ _ _))
  · exact keeps_ite (ha _ _ _ _ _) ((poisonLines_sprs _ _).trans (ha _ _ _ _ _))
  · exact keeps_ite (ha _ _ _ _ _) (ha _ _ _ _ _)
  · rfl
@[simp] theorem meetAll_sprs (c : Chip) (sel : Place → Bool) : (c.meetAll sel).sprs = c.sprs :=
  keeps_ite rfl (foldl_keeps Chip.sprs _ meet_sprs _ c)

/-! Accesses of cores, agents and units. -/

@[simp] theorem setCaches_sprs (c : Chip) (y : Caches) : (c.setCaches y).sprs = c.sprs :=
  (forgetAll_sprs _ _).trans (meetAll_sprs _ _)
@[simp] theorem recall_sprs (c : Chip) (l : Nat) : (c.recall l).sprs = c.sprs := setCaches_sprs _ _
@[simp] theorem invalidate_sprs (c : Chip) (l : Nat) : (c.invalidate l).sprs = c.sprs := setCaches_sprs _ _
@[simp] theorem loseResv_sprs (c : Chip) (l : Nat) (e : Option Hart) : (c.loseResv l e).sprs = c.sprs := by
  unfold Chip.loseResv
  exact foldl_keeps Chip.sprs _ (fun d (e : Nat × HartSt) =>
    sprs_modHart (h := BitVec.ofNat 11 e.1) (f := fun x => { x with resv := none }) (fun _ => rfl) d) _ c
@[simp] theorem countMiss_sprs (c : Chip) (g : Hart) (k : CacheKind) (l : Nat) : (c.countMiss g k l).sprs = c.sprs :=
  countMiss_keeps Chip.sprs setReg_sprs c g k l
@[simp] theorem coreRead_sprs (c : Chip) (g : Hart) (k : CacheKind) (p : Nat) (tags pf : Bool) :
    (c.coreRead g k p tags pf).sprs = c.sprs := by simp [Chip.coreRead, Chip.meetWord]
@[simp] theorem coreWrite_sprs (c : Chip) (g : Hart) (l : List Host.Cell) (pf : Bool) : (c.coreWrite g l pf).sprs = c.sprs := by
  unfold Chip.coreWrite Chip.overwritten
  exact (forgetAll_sprs _ _).trans (foldl_keeps Chip.sprs _ (fun d k => by simp) _ c)
@[simp] theorem readTags_sprs (c : Chip) (l : Nat) : (c.readTags l).sprs = c.sprs :=
  keeps_ite rfl ((meetAll_sprs _ _).trans (setCaches_sprs _ _))
@[simp] theorem readLine_sprs (c : Chip) (l : Nat) (tags : Bool) : (c.readLine l tags).sprs = c.sprs :=
  keeps_ite ((readTags_sprs _ _).trans (meetAll_sprs _ _)) (meetAll_sprs _ _)
@[simp] theorem agentRead_sprs (c : Chip) (l : Nat) (tags : Bool) : (c.agentRead l tags).sprs = c.sprs :=
  (readLine_sprs _ _ _).trans (recall_sprs _ _)
@[simp] theorem agentWrite_sprs (c : Chip) (l : List Host.Cell) (b : Option Hart) : (c.agentWrite l b).sprs = c.sprs := by
  unfold Chip.agentWrite
  extract_lets c1 data c2 c3 tagged
  have h1 : c1.sprs = c.sprs := foldl_keeps Chip.sprs _ (fun d k => by simp) _ c
  have h2 : c2.sprs = c1.sprs := keeps_ite rfl (foldl_keeps Chip.sprs _ (fun d k =>
    keeps_ite rfl (keeps_ite (forgetAll_sprs _ _) (meetAll_sprs _ _))) _ c1)
  have h3 : c3.sprs = c2.sprs := rfl
  exact (foldl_keeps Chip.sprs _ (fun d k => keeps_ite rfl (setCaches_sprs _ _)) tagged c3).trans (h3.trans (h2.trans h1))
@[simp] theorem unitRead_sprs (c : Chip) (p : Nat) (tags : Bool) : (c.unitRead p tags).1.sprs = c.sprs := by
  unfold Chip.unitRead
  split
  · exact agentRead_sprs _ _ _
  · exact unpopulated_sprs _ _ _
@[simp] theorem unitWrite_sprs (c : Chip) (p : Nat) (w : Word) (b : Option Hart) : (c.unitWrite p w b).sprs = c.sprs := by
  unfold Chip.unitWrite
  split
  · exact agentWrite_sprs _ _ _
  · exact unpopulated_sprs _ _ _

/-! The store buffer. -/

@[simp] theorem writeCard_sprs (c : Chip) (a : Nat) : (c.writeCard a).sprs = c.sprs :=
  keeps_ite (unpopulated_sprs _ _ _) (keeps_ite (err_sprs _ _ _ _ _) (agentWrite_sprs _ _ _))
@[simp] theorem acceptEntry_sprs (c : Chip) (e : SbEntry) : (c.acceptEntry e).sprs = c.sprs := by
  unfold Chip.acceptEntry
  exact (foldl_keeps Chip.sprs _ (fun d w => writeCard_sprs _ _) _ _).trans (coreWrite_sprs _ _ _ _)
@[simp] theorem freeSlot_sprs (c : Chip) (h : Hart) : (c.freeSlot h).1.sprs = c.sprs := by
  unfold Chip.freeSlot
  refine keeps_ite rfl ?_
  split
  · exact acceptEntry_sprs _ _
  · rfl
@[simp] theorem pushStore_sprs (c : Chip) (h : Hart) (va : Datum) (priv line : Nat) (plain : Bool) (l : List Host.Cell) :
    (c.pushStore h va priv line plain l).sprs = c.sprs := by
  unfold Chip.pushStore
  split
  · rfl
  · exact freeSlot_sprs c h
@[simp] theorem raiseDse_sprs (c : Chip) (h : Hart) (a : Datum) (source entry priv : Nat) :
    (c.raiseDse h a source entry priv).sprs = c.sprs := by
  unfold Chip.raiseDse
  dsimp only
  split
  · exact sprs_setHart rfl
  · exact (log_sprs _ _ _ _ _ _).trans (sprs_setHart rfl)
@[simp] theorem loseStore_sprs (c : Chip) (h : Hart) (va : Datum) (line priv : Nat) :
    (c.loseStore h va line priv).sprs = c.sprs := by
  unfold Chip.loseStore
  split
  · exact raiseDse_sprs _ _ _ _ _ _
  · exact (raiseDse_sprs _ _ _ _ _ _).trans (freeSlot_sprs c h)
@[simp] theorem apertureBytes_sprs (c : Chip) (h : Hart) (p : Nat) (l : List Byte) : (c.apertureBytes h p l).sprs = c.sprs := by
  unfold Chip.apertureBytes
  refine (agentWrite_sprs _ _ _).trans ((foldl_keeps Chip.sprs _ (fun d e => err_sprs _ _ _ _ _) _ _).trans ?_)
  exact (readTags_sprs _ _).trans (recall_sprs _ _)

/-! Trace records. -/

@[simp] theorem trcPut_sprs (c : Chip) (w0 w1 w2 w3 : Datum) : (c.trcPut w0 w1 w2 w3).sprs = c.sprs := by
  unfold Chip.trcPut
  extract_lets base n a c1 c2
  have h1 : c1.sprs = c.sprs := foldl_keeps Chip.sprs _ (fun d e => agentWrite_sprs _ _ _) _ c
  have h2 : c2.sprs = c.sprs := (setRf_sprs _ _ _ _ _).trans h1
  exact keeps_ite (setRf_sprs _ _ _ _ _) (keeps_ite ((setRf_sprs _ _ _ _ _).trans h2) h2)
@[simp] theorem trcTile_sprs (c : Chip) (t kind hart : Nat) (w1 w2 w3 : Datum) :
    (c.trcTile t kind hart w1 w2 w3).sprs = c.sprs := by
  unfold Chip.trcTile
  extract_lets c1 n c2
  have h2 : c2.sprs = c.sprs := (sprs_of_harts rfl).trans (trcPut_sprs _ _ _ _ _)
  exact keeps_ite ((trcPut_sprs _ _ _ _ _).trans h2) h2
@[simp] theorem trace_sprs (c : Chip) (h : Hart) (k : Nat) (w1 w2 w3 : Datum) : (c.trace h k w1 w2 w3).sprs = c.sprs :=
  keeps_ite (trcTile_sprs _ _ _ _ _ _ _) rfl

/-! Heals. -/

@[simp] theorem sluRead_sprs (c : Chip) (k a : Nat) : (c.sluRead k a).1.sprs = c.sprs := by
  have hp : ∀ d : Chip, (d.sluicePoison k a).sprs = d.sprs := fun d =>
    (machineCheck_sprs _ _ _ _ _).trans (log_sprs _ _ _ _ _ _)
  exact keeps_ite ((hp _).trans (unitRead_sprs c a true)) (unitRead_sprs c a true)
@[simp] theorem rgnReads_sprs (c : Chip) (k : Nat) (l : List Nat) : (c.rgnReads k l).sprs = c.sprs :=
  foldl_keeps Chip.sprs _ (fun d _ => sluRead_sprs d k _) l c
@[simp] theorem setRgn_sprs (c : Chip) (r : Nat) (d : Datum) : (c.setRgn r d).sprs = c.sprs := unitWrite_sprs _ _ _ _
@[simp] theorem rgnTo_sprs (c : Chip) (k r st : Nat) (e : Bool) : (c.rgnTo k r st e).sprs = c.sprs := setRgn_sprs _ _ _
@[simp] theorem setSlc_sprs (c : Chip) (k : Nat) (x : SluCtx) : (c.setSlc k x).sprs = c.sprs := rfl
@[simp] theorem exhausted_sprs (c : Chip) (k : Nat) (g : BitVec 2) : (c.exhausted k g).sprs = c.sprs :=
  keeps_ite rfl ((machineCheck_sprs _ _ _ _ _).trans (log_sprs _ _ _ _ _ _))
@[simp] theorem markCard_sprs (c : Chip) (k p : Nat) : (c.markCard k p).sprs = c.sprs :=
  keeps_ite (unpopulated_sprs _ _ _) (keeps_ite (err_sprs _ _ _ _ _) (agentWrite_sprs _ _ _))
/-- The module of a pair whose first part has the special registers of another. -/
theorem sprs_of_pair {α : Type} {r : Chip × α} {c d : Chip} {a : α} (h : r.1.sprs = c.sprs) (hr : r = (d, a)) :
    d.sprs = c.sprs := by rw [← h, hr]
theorem extent_sprs (c : Chip) (k : Nat) (w : Word) (p : Nat) : (c.extent k w p).1.sprs = c.sprs := by
  unfold Chip.extent
  split
  · rfl
  split
  · rfl
  split
  next c1 hd e1 =>
  have h1 : c1.sprs = c.sprs := sprs_of_pair (sluRead_sprs c k p) e1
  split
  · exact h1
  split
  · exact (log_sprs _ _ _ _ _ _).trans h1
  extract_lets sub c2 scanned n
  have h2 : c2.sprs = c.sprs := keeps_ite ((log_sprs _ _ _ _ _ _).trans h1) h1
  split
  · exact h2
  split
  next c3 l e3 =>
  have h3 : c3.sprs = c.sprs := sprs_of_pair ((unitRead_sprs c2 _ _).trans h2) e3
  split
  · exact h3
  · exact (log_sprs _ _ _ _ _ _).trans h3
/-- Marking an object. The definition is unfolded as a whole function: the kernel would compute addresses where it compares
an application of it with its body. The `dsimp` is to beta-reduce and no more. -/
theorem mark_sprs (c : Chip) (k : Nat) (w : Word) (p : Nat) : (c.mark k w p).sprs = c.sprs := by
  generalize hm : Chip.mark = mark
  delta Chip.mark at hm
  subst hm
  dsimp -zeta -iota -proj only
  split
  next a b =>
  split
  next c1 m e1 =>
  have h1 : c1.sprs = c.sprs := sprs_of_pair (sluRead_sprs c k _) e1
  refine keeps_ite h1 ?_
  extract_lets c2
  have h2 : c2.sprs = c.sprs := (unitWrite_sprs _ _ _ _).trans h1
  split
  next c3 e e3 =>
  have h3 : c3.sprs = c.sprs := sprs_of_pair ((extent_sprs c2 k w p).trans h2) e3
  extract_lets c4 c5 last c6 s
  have h5 : c5.sprs = c.sprs := (setRgn_sprs _ _ _).trans ((rgnReads_sprs _ _ _).trans h3)
  have h6 : c6.sprs = c5.sprs := keeps_ite (foldl_keeps Chip.sprs _ (fun d i => keeps_ite (setRgn_sprs _ _ _) rfl) _ c5) rfl
  exact (setSlc_sprs _ _ _).trans (h6.trans h5)
theorem targetFor_sprs (c : Chip) (k gen words : Nat) : (c.targetFor k gen words).1.sprs = c.sprs := by
  unfold Chip.targetFor
  extract_lets s fits
  split
  · exact setSlc_sprs _ _ _
  have h1 := rgnReads_sprs c k ((List.range (c.heapCount k)).map (c.pfirst k + ·))
  split
  · exact (setSlc_sprs _ _ _).trans ((log_sprs _ _ _ _ _ _).trans ((setRgn_sprs _ _ _).trans ((rgnTo_sprs _ _ _ _ _).trans h1)))
  · exact (exhausted_sprs _ _ _).trans h1
theorem copyObject_sprs (c : Chip) (k : Nat) (w : Word) (p : Nat) : (c.copyObject k w p).1.sprs = c.sprs := by
  unfold Chip.copyObject
  split
  next c1 e e1 =>
  have h1 : c1.sprs = c.sprs := sprs_of_pair (extent_sprs c k w p) e1
  extract_lets gen
  split
  next c2 e2 => exact sprs_of_pair ((targetFor_sprs c1 k gen _).trans h1) e2
  next c2 q e2 =>
  have h2 : c2.sprs = c.sprs := sprs_of_pair ((targetFor_sprs c1 k gen _).trans h1) e2
  refine (agentWrite_sprs _ _ _).trans ((foldl_keeps Chip.sprs _ (fun d i => ?_) _ _).trans h2)
  have hw : ∀ v a, ((d.unitRead (p + 8 * i)).1.agentWrite (wordCells a v)).sprs = d.sprs := fun v a =>
    (agentWrite_sprs _ _ _).trans (unitRead_sprs _ _ _)
  exact keeps_ite ((markCard_sprs _ _ _).trans (hw _ _)) (hw _ _)

@[simp] theorem emitTo_sprs (c : Chip) (n : BitVec 18) (f : Frame) : (c.emitTo n f).sprs = c.sprs := by
  unfold Chip.emitTo
  split <;> rfl
theorem sendSyn_sprs (c : Chip) (n : BitVec 18) : (c.sendSyn n).sprs = c.sprs :=
  (emitTo_sprs _ _ _).trans (emitTo_sprs _ _ _)
theorem sendData_sprs (c : Chip) (n : BitVec 18) (f : Frame) : (c.sendData n f).sprs = c.sprs :=
  keeps_ite (keeps_ite rfl (sendSyn_sprs _ _)) (emitTo_sprs _ _ _)
theorem sendRecord_sprs (c : Chip) (n : BitVec 18) (r : Record) : (c.sendRecord n r).sprs = c.sprs :=
  keeps_ite rfl (sendData_sprs _ _ _)

/-- A choice by an optional number has a property where each of its alternatives has it. -/
theorem option_match_of {α : Type} (P : α → Prop) {o : Option Nat} {a : α} {f : Nat → α} (ha : P a)
    (hf : ∀ b, P (f b)) : P (match o with | none => a | some b => f b) := by
  cases o with
  | none => exact ha
  | some b => exact hf b

/-- A heal (R449) changes words and records, and no thread's special registers. -/
theorem heal_sprs (c : Chip) (k : Nat) (w : Word) : FstKeeps Chip.sprs c (c.heal k w) := by
  unfold Chip.heal
  extract_lets good paint phase
  refine option_match_of (FstKeeps Chip.sprs c) ?_ (fun p => ?_)
  · exact fstKeeps_ite (sendRecord_sprs _ _ _) rfl
  extract_lets c1 st fwd
  have h1 : c1.sprs = c.sprs := rgnReads_sprs _ _ _
  have hf : FstKeeps Chip.sprs c fwd := by
    refine fstKeeps_ite ?_ h1
    split
    next c2 hd e2 =>
    have h2 : c2.sprs = c.sprs := sprs_of_pair ((unitRead_sprs c1 p true).trans h1) e2
    exact fstKeeps_ite h2 (fstKeeps_ite h2 (fstKeeps_ite h2 ((copyObject_sprs _ _ _ _).trans h2)))
  generalize fwd = f at hf ⊢
  obtain ⟨c2, q, drained⟩ := f
  cases q with
  | none => cases drained with
    | true => exact (log_sprs _ _ _ _ _ _).trans hf
    | false => exact hf
  | some q => exact keeps_ite ((mark_sprs _ _ _ _).trans hf) hf
theorem adopt_sprs (c : Chip) (h : Hart) (k : Nat) : (c.adopt h k).sprs = c.sprs :=
  keeps_ite rfl (sprs_setHart rfl)

end Sys2Proof.Machine
end

section
/-! PROOFS. What a computation of a thread leaves of the module, however it ends: the rules of its parts, and that translation
(R317–R350), loads and stores leave every thread's special registers. -/
namespace Sys2Proof.Machine

/-- The module a computation ends in. -/
def endOf {α : Type} : EStateM.Result Stop Chip α → Chip
  | .ok _ c => c
  | .error _ c => c
/-- Where `p` tells `v` of the module before the computation, it tells `v` after it, whether it completes or stops. -/
def Leaves {α β : Type} (p : Chip → β) (v : β) (m : M α) : Prop := ∀ c, p c = v → p (endOf (m c)) = v

section
variable {α β γ : Type} {p : Chip → β} {v : β}

theorem leaves_pure (a : α) : Leaves p v (pure a) := fun _ hc => hc
theorem leaves_throw (e : Stop) : Leaves p v (throw e : M α) := fun _ hc => hc
theorem leaves_raise (t : Trap) : Leaves p v (raise t : M α) := leaves_throw _
theorem leaves_set {d : Chip} (hd : p d = v) : Leaves p v (set d : M PUnit) := fun _ _ => hd
theorem leaves_modify {f : Chip → Chip} (hf : ∀ c, p (f c) = p c) : Leaves p v (modify f : M PUnit) := fun c hc =>
  (hf c).trans hc
theorem leaves_bind {x : M α} {f : α → M γ} (hx : Leaves p v x) (hf : ∀ a, Leaves p v (f a)) : Leaves p v (x >>= f) := by
  intro c hc
  have h := hx c hc
  rw [bind_run]
  cases hr : x c with
  | ok a d =>
    rw [hr] at h
    exact hf a d h
  | error e d =>
    rw [hr] at h
    exact h
/-- What is read from the module is read where `p` tells `v`. -/
theorem leaves_get {f : Chip → M γ} (hf : ∀ c, p c = v → Leaves p v (f c)) : Leaves p v (get >>= f) := fun c hc =>
  hf c hc c hc
theorem leaves_hartM (h : Hart) : Leaves p v (hartM h) := fun _ hc => hc
theorem leaves_need (b : Bool) (t : Trap) : Leaves p v (need b t) := by
  unfold need
  split
  · exact leaves_pure _
  · exact leaves_raise _
theorem leaves_ite {b : Prop} [Decidable b] {x y : M α} (hx : Leaves p v x) (hy : Leaves p v y) :
    Leaves p v (if b then x else y) := by
  split
  · exact hx
  · exact hy
theorem leaves_tryCatch {x : M α} {f : Stop → M α} (hx : Leaves p v x) (hf : ∀ e, Leaves p v (f e)) :
    Leaves p v (tryCatch x f) := by
  intro c hc
  have h := hx c hc
  rw [show (tryCatch x f : M α) c = EStateM.tryCatch x f c from rfl, EStateM.tryCatch]
  cases hr : x c with
  | ok a d =>
    rw [hr] at h
    exact h
  | error e d =>
    rw [hr] at h
    exact hf e d h
theorem leaves_forM {l : List γ} {f : γ → M PUnit} (hf : ∀ a, Leaves p v (f a)) : Leaves p v (l.forM f) := by
  induction l with
  | nil => exact leaves_pure _
  | cons a t ih => exact leaves_bind (hf a) fun _ => ih
theorem leaves_mapM {l : List γ} {f : γ → M α} (hf : ∀ a, Leaves p v (f a)) : Leaves p v (l.mapM f) := by
  induction l with
  | nil => exact leaves_pure _
  | cons a t ih =>
    rw [List.mapM_cons]
    exact leaves_bind (hf a) fun _ => leaves_bind ih fun _ => leaves_pure _
/-- What `p` tells of the module a computation that completes, or stops, ends in. -/
theorem Leaves.ok {m : M α} (hm : ∀ v, Leaves p v m) {c d : Chip} {a : α} (hr : m c = .ok a d) : p d = p c := by
  simpa [hr, endOf] using hm (p c) c rfl
theorem Leaves.error {m : M α} (hm : ∀ v, Leaves p v m) {c d : Chip} {e : Stop} (hr : m c = .error e d) : p d = p c := by
  simpa [hr, endOf] using hm (p c) c rfl
end

/-! Translation. -/

section
variable {v : Hart → Sparse Word}

theorem readEntry_sprs (k : Walker) (r : Regime) (a stage lv : Nat) (ipa : Option Datum) {via : Nat → M (Nat × Bool)} (ea : Nat)
    (hv : ∀ e, Leaves Chip.sprs v (via e)) : Leaves Chip.sprs v (readEntry k r a stage lv ipa via ea) := by
  unfold readEntry
  refine leaves_bind (hv ea) fun x => leaves_get fun c hc => ?_
  dsimp only
  split
  · exact leaves_raise _
  · exact leaves_raise _
  · exact leaves_raise _
  · exact leaves_raise _
  · exact leaves_bind (leaves_set ((unpopulated_sprs _ _ _).trans hc)) fun _ => leaves_raise _
  · refine leaves_bind (leaves_need _ _) fun _ => leaves_bind (leaves_set ((agentRead_sprs _ _ _).trans hc)) fun _ =>
      leaves_get fun d hd => leaves_bind (leaves_need _ _) fun _ => leaves_bind (leaves_need _ _) fun _ => ?_
    exact leaves_ite (leaves_pure _) (leaves_bind (leaves_set ((sprs_of_harts rfl).trans hd)) fun _ => leaves_pure _)
theorem walkFrom_sprs (k : Walker) (r : Regime) (cached : Bool) (root a stage : Nat) (ipa : Option Datum)
    {via : Nat → M (Nat × Bool)} (hv : ∀ e, Leaves Chip.sprs v (via e)) (l : List Nat) :
    Leaves Chip.sprs v (walkFrom k r cached root a stage ipa via l) := by
  induction l generalizing root with
  | nil => exact leaves_raise _
  | cons lv rest ih =>
    rw [walkFrom]
    have hr : ∀ ea, Leaves Chip.sprs v (readEntry k r a stage lv ipa via ea) := fun ea => readEntry_sprs k r a stage lv ipa ea hv
    refine leaves_get fun c hc => ?_
    extract_lets hit
    refine leaves_bind ?_ fun ⟨e, p⟩ => ?_
    · cases hit with
      | none => exact hr _
      | some t => exact leaves_bind (leaves_set hc) fun _ => leaves_ite (leaves_pure _) (hr _)
    · cases rest with
      | nil => exact leaves_pure _
      | cons lv' rest' => exact ih _
theorem touchLeaf_sprs (k : Walker) (p : Nat) (e : Datum) (dirty : Bool) : Leaves Chip.sprs v (touchLeaf k p e dirty) := by
  unfold touchLeaf
  refine leaves_ite (leaves_pure _) (leaves_get fun c hc => leaves_ite ?_ ?_)
  · exact leaves_bind (leaves_set ((agentWrite_sprs _ _ _).trans hc)) fun _ =>
      leaves_bind (leaves_modify fun _ => sprs_of_harts rfl) fun _ => leaves_pure _
  · exact leaves_bind (leaves_set ((sprs_of_harts rfl).trans hc)) fun _ => leaves_pure _
theorem stage2_sprs (k : Walker) (r : Regime) (cached : Bool) (acc : Acc') (f : Bool) (ipa : Nat) :
    Leaves Chip.sprs v (stage2 k r cached acc f ipa) := by
  unfold stage2
  refine leaves_ite (leaves_pure _) (leaves_bind (walkFrom_sprs _ _ _ _ _ _ _ (fun _ => leaves_pure _) _) fun ⟨e, p, _⟩ => ?_)
  exact leaves_bind (leaves_need _ _) fun _ => leaves_pure _
theorem tableVia_sprs (k : Walker) (r : Regime) (cached : Bool) (ea : Nat) : Leaves Chip.sprs v (tableVia k r cached ea) := by
  unfold tableVia
  refine leaves_ite (leaves_pure _) ?_
  extract_lets leaf
  have hl : ∀ b, Leaves Chip.sprs v (leaf b) := fun b =>
    leaves_bind (walkFrom_sprs _ _ _ _ _ _ _ (fun _ => leaves_pure _) _) fun x => leaves_bind (leaves_need _ _) fun _ =>
      leaves_bind (leaves_ite (leaves_pure _) (touchLeaf_sprs _ _ _ _)) fun _ => leaves_pure _
  refine leaves_bind (hl _) fun ⟨ok, e⟩ => leaves_bind (leaves_ite (leaves_pure _) ?_) fun e => ?_
  · exact leaves_bind (hl _) fun _ => leaves_pure _
  · exact leaves_ite (leaves_pure _) (leaves_pure _)
theorem touchLeaf1_sprs (k : Walker) (r : Regime) (ea p : Nat) (e : Datum) (dirty : Bool) :
    Leaves Chip.sprs v (touchLeaf1 k r ea p e dirty) := by
  unfold touchLeaf1
  refine leaves_ite (leaves_pure _) (leaves_get fun c hc => leaves_ite (touchLeaf_sprs _ _ _ _) ?_)
  refine leaves_bind (leaves_ite (leaves_bind (stage2_sprs _ _ _ _ _ _) fun ⟨_, l2, at2⟩ => ?_) (leaves_pure _)) fun ok => ?_
  · cases l2 with
    | none => exact leaves_pure _
    | some e2 => exact touchLeaf_sprs _ _ _ _
  · exact leaves_ite (touchLeaf_sprs _ _ _ _) (leaves_pure _)
theorem flat_sprs (k : Walker) (acc : Acc') (a : Nat) : Leaves Chip.sprs v (flat k acc a) := by
  unfold flat
  exact leaves_bind (leaves_need _ _) fun _ => leaves_get fun _ _ => leaves_bind (leaves_need _ _) fun _ => leaves_pure _
theorem walkVia_sprs (k : Walker) (r : Regime) (acc : Acc') (a : Nat) (cached : Bool) :
    Leaves Chip.sprs v (walkVia k r acc a cached) := by
  unfold walkVia
  refine leaves_ite (leaves_ite (flat_sprs _ _ _) ?_) (leaves_ite ?_ (leaves_ite ?_ (flat_sprs _ _ _)))
  · exact leaves_bind (walkFrom_sprs _ _ _ _ _ _ _ (fun _ => leaves_pure _) _) fun ⟨e, p, ea⟩ =>
      leaves_bind (leaves_need _ _) fun _ => leaves_get fun _ _ => leaves_pure _
  · exact leaves_bind (walkFrom_sprs _ _ _ _ _ _ _ (tableVia_sprs _ _ _) _) fun ⟨e, p, ea⟩ =>
      leaves_bind (leaves_need _ _) fun _ => leaves_bind (stage2_sprs _ _ _ _ _ _) fun ⟨_, l2, at2⟩ =>
        leaves_get fun _ _ => leaves_pure _
  · exact leaves_bind (leaves_need _ _) fun _ => leaves_bind (leaves_need _ _) fun _ =>
      leaves_bind (stage2_sprs _ _ _ _ _ _) fun ⟨_, l2, at2⟩ => leaves_get fun _ _ => leaves_pure _
theorem walkFresh_sprs (k : Walker) (r : Regime) (acc : Acc') (a : Nat) : Leaves Chip.sprs v (walkFresh k r acc a) := by
  unfold walkFresh
  refine leaves_get fun c hc => leaves_ite (walkVia_sprs _ _ _ _ _) (leaves_tryCatch (walkVia_sprs _ _ _ _ _) fun e => ?_)
  cases e with
  | trap t =>
    exact leaves_ite (leaves_bind (leaves_modify fun _ => sprs_of_harts rfl) fun _ => walkVia_sprs _ _ _ _ _) (leaves_throw _)
  | esc n t => exact leaves_throw _
  | wait => exact leaves_throw _
theorem reachCheck_sprs (k : Walker) (r : Regime) (acc : Acc') (x : Xl) : Leaves Chip.sprs v (reachCheck k r acc x) :=
  leaves_get fun _ _ => leaves_need _ _
theorem touchBoth_sprs (k : Walker) (r : Regime) (x : Xl) (dirty : Bool) : Leaves Chip.sprs v (touchBoth k r x dirty) := by
  unfold touchBoth
  refine leaves_bind ?_ fun ok => leaves_ite (leaves_pure _) ?_
  · cases x.leaf1 with
    | none => exact leaves_pure _
    | some e => exact leaves_ite (leaves_pure _) (touchLeaf1_sprs _ _ _ _ _ _)
  · cases x.leaf2 with
    | none => exact leaves_pure _
    | some e => exact leaves_ite (leaves_pure _) (touchLeaf_sprs _ _ _ _)
theorem settleLeaves_sprs (k : Walker) (r : Regime) (acc : Acc') (a n : Nat) (x : Xl) :
    Leaves Chip.sprs v (settleLeaves k r acc a n x) := by
  induction n generalizing x with
  | zero => exact leaves_pure _
  | succ n ih =>
    rw [settleLeaves]
    exact leaves_bind (touchBoth_sprs _ _ _ _) fun _ => leaves_ite (leaves_pure _) (leaves_bind (walkVia_sprs _ _ _ _ _) fun y =>
      leaves_bind (reachCheck_sprs _ _ _ _) fun _ => ih _)
/-- Translation (R317) leaves the special registers. -/
theorem translate_sprs (k : Walker) (r : Regime) (acc : Acc') : Leaves Chip.sprs v (translate k r acc) := by
  unfold translate
  refine leaves_bind (leaves_need _ _) fun _ => ?_
  extract_lets a set12
  refine leaves_get fun c hc => leaves_bind ?_ fun x => leaves_bind (reachCheck_sprs _ _ _ _) fun _ =>
    leaves_bind (settleLeaves_sprs _ _ _ _ _ _) fun y => ?_
  · split
    · split
      · exact leaves_bind (leaves_set hc) fun _ => leaves_pure _
      · exact leaves_bind (leaves_set ((sprs_of_harts rfl).trans hc)) fun _ => walkFresh_sprs _ _ _ _
    · exact walkFresh_sprs _ _ _ _
  · extract_lets t jp
    have hj : ∀ u, Leaves Chip.sprs v (jp u) := fun u => leaves_ite (leaves_pure _)
      (leaves_bind (leaves_modify fun _ => sprs_of_harts rfl) fun _ => leaves_pure _)
    exact leaves_ite (leaves_bind (stage2_sprs _ _ _ _ _ _) fun _ => hj ()) (hj ())
theorem setDirtyBits_sprs (k : Walker) (r : Regime) (x : Xl) : Leaves Chip.sprs v (setDirtyBits k r x) := by
  unfold setDirtyBits
  exact leaves_bind (touchBoth_sprs _ _ _ _) fun _ => leaves_ite (leaves_pure _) (leaves_modify fun _ => sprs_of_harts rfl)

/-! Loads and stores. -/

theorem healFor_sprs (h : Hart) (w : Word) : Leaves Chip.sprs v (healFor h w) := by
  unfold healFor
  refine leaves_get fun c hc => ?_
  dsimp only
  split
  · exact leaves_pure _
  next k _ =>
  refine leaves_bind (leaves_set ((pmc_sprs _ _ _ _).trans hc)) fun _ => leaves_get fun d hd => ?_
  have h1 : (d.heal k w).1.sprs = v := (heal_sprs d k w).trans hd
  refine leaves_bind (leaves_set h1) fun _ => ?_
  split
  · exact leaves_bind (leaves_set ((adopt_sprs _ _ _).trans h1)) fun _ => leaves_pure _
  · exact leaves_throw _
  · exact leaves_raise _
theorem writeBack_sprs (h : Hart) (x : Xl) (w u : Word) : Leaves Chip.sprs v (writeBack h x w u) := by
  unfold writeBack
  exact leaves_get fun c hc => leaves_ite (leaves_set ((agentWrite_sprs _ _ _).trans hc)) (leaves_pure _)
theorem readAt_sprs (h : Hart) (x : Xl) : Leaves Chip.sprs v (readAt h x) := by
  unfold readAt
  refine leaves_get fun c hc => ?_
  split
  · refine leaves_bind (leaves_set (Eq.trans (keeps_ite ?_ ?_) hc)) fun _ => leaves_get fun _ _ => leaves_pure _
    · exact agentRead_sprs _ _ _
    · exact coreRead_sprs _ _ _ _ _ _
  · exact leaves_bind (leaves_set ((agentRead_sprs _ _ _).trans hc)) fun _ => leaves_get fun _ _ => leaves_pure _
  · exact leaves_bind (leaves_set ((unpopulated_sprs _ _ _).trans hc)) fun _ => leaves_pure _
theorem deliver_sprs (h : Hart) (x : Xl) (va : Datum) (kind : Nat) (w : Word) : Leaves Chip.sprs v (deliver h x va kind w) := by
  unfold deliver
  refine leaves_get fun c hc => leaves_bind (leaves_ite ?_ (leaves_pure _)) fun u => ?_
  · refine leaves_bind (leaves_tryCatch (healFor_sprs _ _) fun e => ?_) fun u => ?_
    · cases e <;> exact leaves_throw _
    · exact leaves_ite (leaves_bind (writeBack_sprs _ _ _ _) fun _ => leaves_pure _) (leaves_pure _)
  · exact leaves_get fun _ _ => leaves_bind (leaves_need _ _) fun _ => leaves_pure _
/-- A load of a word (R158) leaves the special registers. -/
theorem loadWordIn_sprs (h : Hart) (r : Regime) (va : Datum) (kind : Nat) (way : Way) (carry : Bool) :
    Leaves Chip.sprs v (loadWordIn h r va kind way carry) := by
  unfold loadWordIn
  exact leaves_bind (leaves_need _ _) fun _ => leaves_bind (translate_sprs _ _ _) fun x => leaves_bind (readAt_sprs _ _) fun w =>
    leaves_ite (leaves_ite (leaves_pure _) (leaves_raise _)) (leaves_bind (deliver_sprs _ _ _ _ _) fun _ => leaves_pure _)
theorem checkMono_sprs (va : Datum) (w : Word) (kind : Nat) (x : Xl) : Leaves Chip.sprs v (checkMono va w kind x) := by
  unfold checkMono
  extract_lets mono jp
  have hj : ∀ u, Leaves Chip.sprs v (jp u) := fun u => leaves_get fun _ _ => leaves_ite (leaves_need _ _) (leaves_pure _)
  split
  · exact leaves_bind (leaves_need _ _) fun _ => hj ()
  · exact hj ()
theorem checkStore_sprs (h : Hart) (r : Regime) (va : Datum) (w : Word) (kind : Nat) (way : Way) (t : Takes) :
    Leaves Chip.sprs v (checkStore h r va w kind way t) :=
  leaves_bind (leaves_bind (leaves_need _ _) fun _ => translate_sprs _ _ _) fun _ =>
    leaves_bind (leaves_get fun _ _ => leaves_need _ _) fun _ => leaves_bind (checkMono_sprs _ _ _ _) fun _ => leaves_pure _
theorem putWord_sprs (h : Hart) (r : Regime) (x : Xl) (va : Datum) (kind : Nat) (w : Word) :
    Leaves Chip.sprs v (putWord h r x va kind w) := by
  unfold putWord
  refine leaves_get fun _ _ => ?_
  extract_lets jp
  have hj : ∀ u, Leaves Chip.sprs v (jp u) := fun u => by
    refine leaves_get fun c hc => ?_
    split
    · exact leaves_set ((pushStore_sprs _ _ _ _ _ _ _).trans hc)
    · exact leaves_set ((apertureBytes_sprs _ _ _ _).trans hc)
    · exact leaves_set ((loseStore_sprs _ _ _ _ _).trans ((unpopulated_sprs _ _ _).trans hc))
  exact leaves_ite (leaves_bind (setDirtyBits_sprs _ _ _) fun _ => hj ()) (hj ())
/-- A store of a word (R158) leaves the special registers. -/
theorem storeWordIn_sprs (h : Hart) (r : Regime) (va : Datum) (w : Word) (kind : Nat) (way : Way) (t : Takes) :
    Leaves Chip.sprs v (storeWordIn h r va w kind way t) :=
  leaves_bind (checkStore_sprs _ _ _ _ _ _ _) fun _ => putWord_sprs _ _ _ _ _ _
/-- The push of a frame (R280, R305) leaves the special registers. -/
theorem pushFrame_sprs (h : Hart) (priv : Nat) (f : Datum) (l : List Word) : Leaves Chip.sprs v (pushFrame h priv f l) :=
  leaves_bind (leaves_hartM h) fun _ => leaves_forM fun _ => storeWordIn_sprs _ _ _ _ _ _ _
end

end Sys2Proof.Machine
end

section
/-! PROOFS. The loop registers LSTART, LEND and LCOUNT of a thread's levels (R105, R109): trap entry (R280), escalation (R305),
the events a boundary accepts (R272) and the end of a single step (R662) leave them; and so TRAP does (R268). -/
namespace Sys2Proof.Machine

/-- LSTART, LEND and LCOUNT of the levels, special registers 0x040 to 0x04B. -/
def HartSt.loops (x : HartSt) (i : Fin 12) : Word := x.sprW (0x040 + i)
/-- The loop registers of a thread of the module. -/
def Chip.loops (h : Hart) (c : Chip) : Fin 12 → Word := (c.hart h).loops

/-! A hart's changes beside its loop registers. -/

theorem loops_of_spr {x y : HartSt} (hs : y.spr = x.spr) : y.loops = x.loops := by
  funext i
  rw [HartSt.loops, HartSt.loops, HartSt.sprW, HartSt.sprW, hs]
@[simp] theorem HartSt.loops_setSprW (x : HartSt) {n : Nat} (w : Word) (hn : n < 0x040 ∨ 0x04B < n) :
    (x.setSprW n w).loops = x.loops := by
  funext i
  have hi : 0x040 + i.val ≠ n := by omega
  simp [HartSt.loops, HartSt.sprW, HartSt.setSprW, sget, lookup_sset_other _ _ _ hi]
@[simp] theorem HartSt.loops_setSpr (x : HartSt) {n : Nat} (d : Datum) (hn : n < 0x040 ∨ 0x04B < n) :
    (x.setSpr n d).loops = x.loops := x.loops_setSprW _ hn
@[simp] theorem HartSt.loops_dirty (x : HartSt) (g : Option Nat) : (x.dirty g).loops = x.loops := by
  cases g with
  | none => rfl
  | some g => exact x.loops_setSpr _ (by omega)
@[simp] theorem HartSt.loops_putSpr (x : HartSt) {n : Nat} (d : Datum) (hn : n < 0x040 ∨ 0x04B < n) :
    (x.putSpr n d).loops = x.loops := (loops_dirty _ _).trans (x.loops_setSpr d hn)
@[simp] theorem HartSt.loops_setPreg (x : HartSt) (i : Nat) (w : Word) : (x.setPreg i w).loops = x.loops := loops_of_spr rfl
@[simp] theorem HartSt.loops_putPreg (x : HartSt) (i : Nat) (w : Word) : (x.putPreg i w).loops = x.loops :=
  (loops_dirty _ _).trans (x.loops_setPreg i w)
@[simp] theorem HartSt.loops_entered (x : HartSt) : x.entered.loops = x.loops := loops_of_spr rfl
@[simp] theorem HartSt.loops_advance (x : HartSt) (link : Word) : (x.advance link).loops = x.loops := by
  unfold HartSt.advance HartSt.setWin
  extract_lets w x1 x2 x3
  have h1 : x1.loops = x.loops := x.loops_setSpr _ (by omega)
  have h2 : x2.loops = x1.loops := foldl_keeps HartSt.loops _ (fun y i => y.loops_setPreg _ _) _ x1
  exact (x3.loops_setSpr _ (by omega)).trans ((x2.loops_setPreg _ _).trans (h2.trans h1))
theorem HartSt.loops_landDue (x : HartSt) : (landDue x).loops = x.loops := by
  unfold landDue landWhere
  exact (loops_of_spr rfl).trans (foldl_keeps HartSt.loops _ (fun y l => y.loops_putPreg _ _) _ x)

/-- The groups of the loop registers are 6 and 7 (R115): no other group has a member at one. -/
theorem groupRegs_lt {cwp g i : Nat} (hw : cwp < 16) (hg : g < 6 ∨ 8 ≤ g ∧ g < 16) (hi : i ∈ groupRegs cwp g) :
    i < 1000 + 0x040 := by
  unfold groupRegs at hi
  obtain ⟨j, hj, rfl⟩ := List.mem_map.1 hi
  have hj := List.mem_range.1 hj
  (repeat' split) <;> omega
theorem HartSt.loops_groupPut (x : HartSt) {i : Nat} (w : Word) (hi : i < 1000 + 0x040) : (x.groupPut i w).loops = x.loops := by
  have h77 : i ≠ 1000 + 0x4D := by omega
  have hn : i - 1000 < 0x040 ∨ 0x04B < i - 1000 := by omega
  unfold HartSt.groupPut
  rw [if_neg h77]
  (repeat' split) <;> simp [hn]
theorem HartSt.loops_groupPuts (l : List (Nat × Word)) (hl : ∀ e ∈ l, e.1 < 1000 + 0x040) (x : HartSt) :
    (l.foldl (fun x e => x.groupPut e.1 e.2) x).loops = x.loops := by
  induction l generalizing x with
  | nil => rfl
  | cons e t ih =>
    exact (ih (fun f hf => hl f (List.mem_cons_of_mem _ hf)) _).trans (x.loops_groupPut _ (hl e List.mem_cons_self))

/-! The module's changes. -/

section
variable {h : Hart}

theorem loops_of_sprs {c d : Chip} (hd : d.sprs = c.sprs) : d.loops h = c.loops h := loops_of_spr (congrFun hd h)
theorem loops_modHart {g : Hart} {f : HartSt → HartSt} (hf : ∀ x, (f x).loops = x.loops) (c : Chip) :
    (c.modHart g f).loops h = c.loops h := by
  by_cases hg : h = g
  · rw [hg, Chip.loops, Chip.hart_modHart, hf]
    rfl
  · rw [Chip.loops, Chip.hart_modHart_other _ _ hg]
    rfl
theorem Leaves.loops {α : Type} {m : M α} (hm : ∀ v, Leaves Chip.sprs v m) {v : Fin 12 → Word} :
    Leaves (Chip.loops h) v m :=
  fun c hc => (loops_of_sprs (hm _ c rfl)).trans hc

theorem pushFrame_loops (k : Hart) (priv : Nat) (f : Datum) (l : List Word) {v : Fin 12 → Word} :
    Leaves (Chip.loops h) v (pushFrame k priv f l) := Leaves.loops fun _ => pushFrame_sprs _ _ _ _

/-- A lazy load of a group other than 6 and 7 (R126). -/
theorem lazyLoad_loops {k : Hart} {g : Nat} (hg : g < 6 ∨ 8 ≤ g ∧ g < 16) {v : Fin 12 → Word} :
    Leaves (Chip.loops h) v (lazyLoad k g) := by
  unfold lazyLoad
  refine leaves_bind (leaves_hartM k) fun x => leaves_ite (leaves_pure _) ?_
  extract_lets z
  refine leaves_bind (leaves_mapM fun i => leaves_tryCatch ?_ fun e => ?_) fun ws => leaves_modify fun c => ?_
  · exact leaves_bind (Leaves.loops fun _ => loadWordIn_sprs _ _ _ _ _ _) fun _ => leaves_pure _
  · cases e <;> exact leaves_throw _
  · refine loops_modHart (fun y => ?_) c
    have hl : ∀ e ∈ (groupRegs y.cwp g).zip ws, e.1 < 1000 + 0x040 := fun e he =>
      groupRegs_lt y.cwp_lt hg (List.of_mem_zip he).1
    exact (HartSt.loops_dirty _ _).trans ((HartSt.loops_setSpr _ _ (by omega)).trans (y.loops_groupPuts _ hl))
/-- The lazy loads of a trap entry (R126). -/
theorem lazyEntry_loops {k : Hart} {v : Fin 12 → Word} : Leaves (Chip.loops h) v (do lazyWindow k; lazyLoad k 9) := by
  refine leaves_bind ?_ fun _ => lazyLoad_loops (by omega)
  unfold lazyWindow
  refine leaves_bind (lazyLoad_loops (by omega)) fun _ => leaves_bind (lazyLoad_loops (by omega)) fun _ => ?_
  exact leaves_bind (lazyLoad_loops (by omega)) fun _ => leaves_bind (lazyLoad_loops (by omega)) fun _ => leaves_pure _
theorem loops_loadCond (c : Chip) (k : Hart) : (c.loadCond k).loops h = c.loops h := by
  unfold Chip.loadCond
  split
  next d hd => exact Leaves.ok (fun _ => lazyLoad_loops (by omega)) hd
  · rfl

/-- A halt (R309). -/
theorem loops_haltThread (c : Chip) (k : Hart) (pc : Datum) (n : Nat) : (c.haltThread k pc n).loops h = c.loops h := by
  unfold Chip.haltThread
  extract_lets c1 c2 c3
  have h1 : c1.loops h = c.loops h := by
    refine loops_modHart (fun x => ?_) c
    exact loops_of_spr rfl
  have h2 : c2.sprs = c1.sprs := log_sprs c1 _ _ _ _ _
  have h3 : c3.sprs = c2.sprs := freeze_sprs c2 _ _
  exact (loops_of_sprs ((notifyMc_sprs c3 _ _ _).trans (h3.trans h2))).trans h1
/-- An escalation (R305). -/
theorem loops_escalate (c : Chip) (k : Hart) (n cause : Nat) (t : Trap) (async : Bool) (pc : Datum) (insn : BitVec 32) :
    (c.escalate k n cause t async pc insn).loops h = c.loops h := by
  unfold Chip.escalate
  extract_lets c1 x sp f ws
  have h1 : c1.loops h = c.loops h := loops_loadCond c k
  split
  · exact (loops_haltThread _ _ _ _).trans h1
  split
  next d hd =>
    exact (loops_haltThread _ _ _ _).trans ((Leaves.error (fun _ => pushFrame_loops _ _ _ _) hd).trans h1)
  next d hd =>
  have h2 : d.loops h = c1.loops h := Leaves.ok (fun _ => pushFrame_loops _ _ _ _) hd
  refine (loops_of_sprs ((trace_sprs _ _ _ _ _ _).trans (pmc_sprs _ _ _ _))).trans ?_
  refine Eq.trans (loops_modHart (fun y => ?_) d) (h2.trans h1)
  refine (loops_of_spr rfl).trans ((HartSt.loops_putSpr _ _ (by omega)).trans ?_)
  split <;> simp

/-- A trap entry (R280), which may escalate in its place (R282). -/
theorem loops_enter (c : Chip) (k : Hart) (t : Trap) (async : Bool) (pc0 pc : Datum) (insn : BitVec 32) :
    FstKeeps (Chip.loops h) c (c.enter k t async pc0 pc insn) := by
  unfold Chip.enter
  extract_lets x window replaced cause pc1 t1 async1 lazied
  have h1 : (endOf lazied).loops h = c.loops h := lazyEntry_loops c rfl
  generalize lazied = r at h1 ⊢
  split
  · exact (loops_escalate _ _ _ _ _ _ _ _).trans h1
  · exact (loops_escalate _ _ _ _ _ _ _ _).trans h1
  extract_lets x2 hp base limit f c2
  have h2 : c2.loops h = c.loops h := by
    refine Eq.trans (loops_of_sprs ?_) h1
    exact keeps_ite ((freeze_sprs _ _ _).trans (log_sprs _ _ _ _ _ _)) rfl
  refine fstKeeps_ite ((loops_escalate _ _ _ _ _ _ _ _).trans h2) (fstKeeps_ite ((loops_escalate _ _ _ _ _ _ _ _).trans h2) ?_)
  split
  next d3 hd3 =>
    exact (loops_escalate _ _ _ _ _ _ _ _).trans ((Leaves.error (fun _ => pushFrame_loops _ _ _ _) hd3).trans h2)
  next d3 hd3 =>
  have h3 : d3.loops h = c.loops h := (Leaves.ok (fun _ => pushFrame_loops _ _ _ _) hd3).trans h2
  refine (loops_of_sprs ((trace_sprs _ _ _ _ _ _).trans (pmc_sprs _ _ _ _))).trans ?_
  refine Eq.trans (loops_modHart (fun y => ?_) d3) h3
  extract_lets y1 y2 y3 y4
  have hy2 : y2.loops = y.loops := (y1.loops_putSpr _ (by omega)).trans ((HartSt.loops_putPreg _ _ _).trans y.loops_entered)
  have hy3 : y3.loops = y.loops := by
    refine Eq.trans ?_ hy2
    unfold y3
    split
    · rfl
    · exact y2.loops_advance _
  refine (loops_of_spr rfl).trans (Eq.trans ?_ hy3 : y4.loops = y.loops)
  unfold y4
  split
  · exact y3.loops_setSpr _ (by omega)
  · rfl

/-- A synchronous trap taken (R103, R307). -/
theorem loops_takeTrap (c : Chip) (k : Hart) (t : Trap) (pc0 pc : Datum) (insn : BitVec 32) :
    (c.takeTrap k t pc0 pc insn).loops h = c.loops h := by
  have h1 : (c.modHart k landDue).loops h = c.loops h := loops_modHart HartSt.loops_landDue c
  have h2 : FstKeeps (Chip.loops h) c (c.tryTrap k t pc0 pc insn) := by
    unfold Chip.tryTrap
    exact fstKeeps_ite ((loops_haltThread _ _ _ _).trans h1) (fstKeeps_ite ((loops_escalate _ _ _ _ _ _ _ _).trans h1)
      (Eq.trans (loops_enter _ _ _ _ _ _ _) h1))
  exact h2
/-- An event accepted at a boundary (R272). -/
theorem loops_accept (c : Chip) (k : Hart) (e : Event) : (c.accept k e).loops h = c.loops h := by
  have h1 : (c.modHart k landDue).loops h = c.loops h := loops_modHart HartSt.loops_landDue c
  have h2 : ∀ t pc, ((c.modHart k landDue).enter k t true pc pc 0).1.loops h = c.loops h := fun t pc =>
    Eq.trans (loops_enter _ _ _ _ _ _ _) h1
  unfold Chip.accept
  cases e with
  | esc n t =>
    have h3 : ∀ x : HartSt, (x.unpend n).loops = x.loops := fun x => by
      unfold HartSt.unpend
      (repeat' split) <;> exact loops_of_spr rfl
    exact (loops_escalate _ _ _ _ _ _ _ _).trans ((loops_modHart h3 _).trans h1)
  | dse t =>
    have h3 : ∀ x : HartSt, ({ x with dse := none } : HartSt).loops = x.loops := fun _ => loops_of_spr rfl
    exact keeps_ite ((loops_modHart h3 _).trans (h2 _ _)) (h2 _ _)
  | int b =>
    have h3 : ∀ x : HartSt, (x.setSpr 0x104 (setFld (x.sprD 0x104) b b 0)).loops = x.loops := fun x =>
      x.loops_setSpr _ (by omega)
    exact keeps_ite ((loops_modHart h3 _).trans (h2 _ _)) (h2 _ _)
/-- The end of a single step (R662). -/
theorem loops_stepEnd (c : Chip) (k : Hart) : (c.stepEnd k).loops h = c.loops h := by
  have hs : ∀ d : Chip, (d.stepHalt k).loops h = d.loops h := loops_modHart fun x => by
    (repeat' split) <;> exact loops_of_spr rfl
  unfold Chip.stepEnd
  split
  · rfl
  split
  · split
    · exact (hs _).trans (loops_accept _ _ _)
    · exact hs _
  · exact hs _
/-- A trap of an instruction that starts leaves the loop registers (R268), whatever thread's. -/
theorem loops_trapped (s : State) (k : Hart) (i : Insn) (t : Trap) (c : Chip) : (Trapped s k i t c).chip.loops h = c.loops h :=
  (loops_of_sprs (settle_sprs _)).trans ((loops_stepEnd _ _).trans (loops_takeTrap _ _ _ _ _ _))
end

/-! TRAP. -/

theorem exec_trap (h : Hart) (o : IOps) (s : State) : exec (.trap h o) s = runs h (insnTrap o) s := rfl
/-- TRAP raises SOFTWARE_TRAP with its immediate where its fields are zero (R140, R268). -/
theorem bodyTrap_run {o : IOps} (hd : o.rd = 0) (hs : o.rs = 0) (c : Chip) :
    bodyTrap o c = .error (.trap { cause := cSoft, detail := o.imm.toNat }) c := by
  rw [bodyTrap, bind_ok (zeroField_ok hd c), bind_ok (zeroField_ok hs c), raise_run]

/-- Settles O23: TRAP's effect stops with SOFTWARE_TRAP, and a trap taken leaves the loop registers. -/
theorem softwareTrap : Obligations.SoftwareTrap := by
  unfold Obligations.SoftwareTrap
  intro s h o c hs hrd hrs
  refine ⟨?_, fun n hlo hhi => ?_⟩
  · rw [exec_trap]
    exact runs_of_trap hs (bodyTrap_run hrd hrs c)
  · have hn : 0x040 + (n - 0x040) = n := by omega
    have hl := congrFun (loops_trapped (h := h) s h (insnTrap o) { cause := 0x1B, detail := o.imm.toNat } c)
      ⟨n - 0x040, by omega⟩
    simpa [Chip.loops, HartSt.loops, hn] using hl

end Sys2Proof.Machine
end
